-- ==== Sys2Proof/Word.lean ====
section
/-!
DEFINITION. The word types of the Planar Pixel Engine and the fixed sets of names the spec uses: planes, draw modes,
error codes, sequencer phases, kinds of command. Spec: 00_scope R12, R15; 10_state R110, R140; 40_sequencer R400;
60_exceptions R710.
-/

namespace Sys2Proof

/-- A byte: a plane byte, a port byte, a selector (00_scope R15). -/
abbrev Byte := BitVec 8

/-- A 16-bit unsigned operand: GW, GH and every coordinate (00_scope R13, COORD_BITS). -/
abbrev Coord := BitVec 16

/-- A 4-bit colour; bit i belongs to plane i+1 (00_scope R12). -/
abbrev Colour := BitVec 4

/-- The four planes, numbered 1 to 4 (00_scope R12). -/
inductive Plane where
  | p1 | p2 | p3 | p4
  deriving DecidableEq, Repr

/-- The colour bit that belongs to a plane: bit p-1 of a colour (00_scope R12). -/
def Plane.bit : Plane → Nat
  | .p1 => 0
  | .p2 => 1
  | .p3 => 2
  | .p4 => 3

/-- The planes in the order every primitive visits them: 1, 2, 3, 4 (41_datapath R470). -/
def Plane.all : List Plane := [.p1, .p2, .p3, .p4]

/-- One value for each plane: the four plane memories, the four window bases, the four bytes of a byte-path write. -/
structure Quad (α : Type) where
  p1 : α
  p2 : α
  p3 : α
  p4 : α
  deriving DecidableEq, Repr

/-- The value for plane `p`. -/
def Quad.get {α : Type} (q : Quad α) : Plane → α
  | .p1 => q.p1
  | .p2 => q.p2
  | .p3 => q.p3
  | .p4 => q.p4

/-- The same four values with plane `p`'s replaced. -/
def Quad.set {α : Type} (q : Quad α) (p : Plane) (v : α) : Quad α :=
  match p with
  | .p1 => { q with p1 := v }
  | .p2 => { q with p2 := v }
  | .p3 => { q with p3 := v }
  | .p4 => { q with p4 := v }

/-- The four values a function gives. -/
def Quad.ofFn {α : Type} (f : Plane → α) : Quad α := ⟨f .p1, f .p2, f .p3, f .p4⟩

/-- The four draw modes (10_state R110). -/
inductive DrawMode where
  | replace | and | or | xor
  deriving DecidableEq, Repr

/-- The error codes that STATUS.ECODE can hold (60_exceptions R710). Codes 9..15 are reserved and never held
(10_state R125), so they have no name here. -/
inductive ErrCode where
  | none | badSel | busy | abort | xdata | underrun | badGeom | oob | badRange
  deriving DecidableEq, Repr

/-- The sequencer's phases (10_state R140). -/
inductive Phase where
  | idle | collect | data | exec
  deriving DecidableEq, Repr

/-- The kinds of command: the mnemonic of a legal selector (40_sequencer R400, `Kind`). -/
inductive Kind where
  | clrerr | getcfg | setdm | setgeom | pset | pget | rfill | rset | rget
  deriving DecidableEq, Repr

end Sys2Proof
end

