-- ==== Sys2Proof/Config.lean ====
section
/-!
DEFINITION. What an implementation or platform fixes (00_scope R13; 92_eei_decisions, open parameters) and the one
uninterpreted value the spec leaves undefined (70_reset_and_hazards R821).
-/

namespace Sys2Proof

/-- The parameters a model takes (00_scope R13). They are one record that State carries and no step changes, so a
statement about every state is about every value of them. -/
structure Config where
  /-- PLANE_BYTES: bytes in each plane. -/
  planeBytes : Nat
  /-- PORT_ADDR_BITS: width of a port address. -/
  portAddrBits : Nat
  /-- PORT_SC: address of the STATUS/CMD port. -/
  portSc : Nat
  /-- PORT_DATA: address of the DATA port. -/
  portData : Nat
  /-- HOST_PLANE_PORT: whether the host plane port exists. -/
  hostPlanePort : Bool
  /-- PLANE_BASE[p]: host bus address of byte 0 of plane p. -/
  planeBase : Quad Nat
  /-- RGET_SUPPORTED: whether selector 0x70 is implemented. -/
  rgetSupported : Bool
  deriving DecidableEq, Repr

/-- The spec's defaults: PLANE_BYTES 32768, HOST_PLANE_PORT true, RGET_SUPPORTED true (00_scope R13).
DESIGN CHOICE, unsafe (log entry 3): the addresses, for which the spec gives no default. -/
def Config.default : Config where
  planeBytes := 32768
  portAddrBits := 1
  portSc := 0
  portData := 1
  hostPlanePort := true
  planeBase := ⟨0, 32768, 65536, 98304⟩
  rgetSupported := true

/-- What 00_scope R13 asks of the parameters: at least 32000 plane bytes, two distinct port addresses, each of
PORT_ADDR_BITS bits. -/
abbrev Config.wf (c : Config) : Prop :=
  32000 ≤ c.planeBytes ∧ c.portSc ≠ c.portData ∧ c.portSc < 2 ^ c.portAddrBits ∧ c.portData < 2 ^ c.portAddrBits

/-- The undefined bytes of 70_reset_and_hazards R821 (93 I3, 'any value'): no body, so nothing can be proved of them.
Applied to the counter `freeIdx` of State (log entry 8). -/
opaque Config.freeByte : Nat → Byte

end Sys2Proof
end

