-- ==== Sys2Proof/Syntax.lean ====
section
/-!
DEFINITION. The instructions: one constructor for each row of opcode_table.json. The nine commands of 30_encoding R305
carry their operands as 30_encoding R306, R307 and R310 assemble them; the six bus operations are those of 30_encoding
R331 and 40_sequencer R401-R406.
-/

namespace Sys2Proof

/-- The 9 commands and 6 bus operations of opcode_table.json (30_encoding R305, R331). -/
inductive Instr where
  /-- CLRERR: clear the error status (42_config R500). -/
  | clrerr
  /-- GETCFG: read back DM, GW and GH (42_config R510). -/
  | getcfg
  /-- SETDM m (42_config R520). -/
  | setdm (m : DrawMode)
  /-- SETGEOM w, h (42_config R530). -/
  | setgeom (w h : Coord)
  /-- PSET c, x, y (43_pixel R550). -/
  | pset (c : Colour) (x y : Coord)
  /-- PGET x, y (43_pixel R560). -/
  | pget (x y : Coord)
  /-- RFILL c, x1, y1, x2, y2 (44_range R610). -/
  | rfill (c : Colour) (x1 y1 x2 y2 : Coord)
  /-- RSET x1, y1, x2, y2, data bytes (44_range R620). -/
  | rset (x1 y1 x2 y2 : Coord) (data : List Byte)
  /-- RGET x1, y1, x2, y2 (44_range R630). -/
  | rget (x1 y1 x2 y2 : Coord)
  /-- RD_STATUS: host read of PORT_SC (40_sequencer R401). -/
  | rdStatus
  /-- WR_CMD b: host write of PORT_SC (40_sequencer R402). -/
  | wrCmd (b : Byte)
  /-- WR_DATA b: host write of PORT_DATA (40_sequencer R403). -/
  | wrData (b : Byte)
  /-- RD_DATA: host read of PORT_DATA (40_sequencer R404). -/
  | rdData
  /-- HP_RD p, off: host read of a plane byte (40_sequencer R405). -/
  | hpRd (p : Plane) (off : Nat)
  /-- HP_WR p, off, v: host write of a plane byte (40_sequencer R406). -/
  | hpWr (p : Plane) (off : Nat) (v : Byte)
  deriving DecidableEq, Repr

end Sys2Proof
end

