-- ==== Sys2Proof/Machine/Operands.lean ====
section
/-!
DEFINITION. Operands and addresses as pure functions: assembling 16-bit operands, the bit-address calculator, flat
indices, the checks of the arguments, and the range splitter. Spec: 00_scope R20; 30_encoding R310-R315; 41_datapath
R450-R453, R475; 42_config R530; 43_pixel R550; 44_range R600.
-/

namespace Sys2Proof.Machine

/-- `LE16(b0, b1) = b0 | (b1 << 8)` (00_scope R20, 20_memory R211). -/
def le16 (b0 b1 : Byte) : Coord := b0.setWidth 16 ||| (b1.setWidth 16 <<< 8)

/-- `v[7:0]` of a 16-bit value, the byte sent first (20_memory R211). -/
def loByte (v : Coord) : Byte := v.extractLsb' 0 8

/-- `v[15:8]` of a 16-bit value, the byte sent second (20_memory R211). -/
def hiByte (v : Coord) : Byte := v.extractLsb' 8 8

/-- The colour of an RSET data byte: bits 3:0; bits 7:4 are ignored (30_encoding R312). -/
def dataColour (b : Byte) : Colour := b.setWidth 4

/-- A result byte: the colour in bits 3:0, bits 7:4 zero (30_encoding R313). -/
def resultByte (c : Colour) : Byte := c.setWidth 8

/-- The row stride `S = GW div 8` (41_datapath R450). -/
def stride (gw : Coord) : Nat := gw.toNat / 8

/-- `BitAddr(x, y)`: the byte offset within every plane and the one-hot mask (41_datapath R451, 20_memory R210). -/
def bitAddr (gw x y : Coord) : Nat × Byte :=
  (y.toNat * stride gw + x.toNat / 8, 0x80#8 >>> (x.toNat % 8))

/-- `Flat(x, y) = y * GW + x` (41_datapath R452). -/
def flat (gw x y : Coord) : Nat := y.toNat * gw.toNat + x.toNat

/-- `FlatAddr(f) = (f div 8, 0x80 >> (f mod 8))` (41_datapath R453). -/
def flatAddr (f : Nat) : Nat × Byte := (f / 8, 0x80#8 >>> (f % 8))

/-- `GeomLegal(W, H)` (42_config R530). -/
def geomLegal (planeBytes : Nat) (w h : Coord) : Bool :=
  decide (w.toNat % 8 = 0 ∧ 8 ≤ w.toNat ∧ 1 ≤ h.toNat ∧ w.toNat / 8 * h.toNat ≤ planeBytes)

/-- SETGEOM's validation: `none` for OK, else BADGEOM (42_config R530). -/
def geomCheck (planeBytes : Nat) (w h : Coord) : Option ErrCode :=
  if geomLegal planeBytes w h then none else some .badGeom

/-- A coordinate pair inside the geometry (43_pixel R550). -/
def inBounds (gw gh x y : Coord) : Bool := decide (x.toNat < gw.toNat ∧ y.toNat < gh.toNat)

/-- PSET's and PGET's validation: `none` for OK, else OOB (43_pixel R550, R560). -/
def pixelCheck (gw gh x y : Coord) : Option ErrCode :=
  if inBounds gw gh x y then none else some .oob

/-- `RangeCheck()`: bounds first, then order (44_range R600, 60_exceptions R725). -/
def rangeCheck (gw gh x1 y1 x2 y2 : Coord) : Option ErrCode :=
  if inBounds gw gh x1 y1 && inBounds gw gh x2 y2 then
    if flat gw x2 y2 < flat gw x1 y1 then some .badRange else none
  else some .oob

/-- `n = Le - Ls + 1` (30_encoding R315, 44_range R600). -/
def rangeLength (gw x1 y1 x2 y2 : Coord) : Nat := flat gw x2 y2 + 1 - flat gw x1 y1

/-- How many data bytes an RSET takes: n when its range is legal; none when it is not, for then the data phase does
not start (30_encoding R315, 44_range R620). -/
def rsetCount (gw gh x1 y1 x2 y2 : Coord) : Nat :=
  if rangeCheck gw gh x1 y1 x2 y2 = none then rangeLength gw x1 y1 x2 y2 else 0

/-- The parts of a split range, each half open: head and tail in flat indices, interior in byte offsets
(41_datapath R475). -/
structure Split where
  headLo : Nat
  headHi : Nat
  interiorLo : Nat
  interiorHi : Nat
  tailLo : Nat
  tailHi : Nat
  deriving DecidableEq, Repr

/-- `Split(Ls, Le)` (41_datapath R475): one head, one interior, one tail over flat indices (90_conflicts C2, C3). -/
def split (ls le : Nat) : Split :=
  let a := ls
  let b := le + 1
  let up := 8 * ((a + 7) / 8)
  let down := 8 * (b / 8)
  if up ≤ down then ⟨a, up, up / 8, down / 8, down, b⟩
  else ⟨a, b, 0, 0, b, b⟩

/-- The naturals of `[lo, hi)` in ascending order (00_scope R20). -/
def ascending (lo hi : Nat) : List Nat := List.range' lo (hi - lo)

/-- The flat indices of the leading pixels. -/
def Split.head (s : Split) : List Nat := ascending s.headLo s.headHi

/-- The byte offsets of the whole bytes. -/
def Split.interior (s : Split) : List Nat := ascending s.interiorLo s.interiorHi

/-- The flat indices of the trailing pixels. -/
def Split.tail (s : Split) : List Nat := ascending s.tailLo s.tailHi

end Sys2Proof.Machine
end

