-- ==== Sys2Proof/Decode.lean ====
section
/-!
DEFINITION. Decoding, total on any bytes and any bus cycle, rejecting by name; and after it the encoder. The selector
map is 30_encoding R305; lengths are 30_encoding R316; bus operations are decoded by port or window address
(20_memory R200, R202; 40_sequencer R401-R406).
-/

namespace Sys2Proof

open Sys2Proof.Machine

/-- A row of the selector map: a selector `b` belongs to it when `b & mask = pattern` (30_encoding R305). -/
structure SelectorRow where
  mask : Byte
  pattern : Byte
  kind : Kind
  deriving DecidableEq, Repr

/-- The selector map (30_encoding R305; opcode_table.json, match and mask). -/
def selectorTable : List SelectorRow :=
  [⟨0xFF, 0x01, .clrerr⟩, ⟨0xFF, 0x08, .getcfg⟩, ⟨0xFC, 0x10, .setdm⟩, ⟨0xFF, 0x20, .setgeom⟩, ⟨0xF0, 0x30, .pset⟩,
   ⟨0xFF, 0x40, .pget⟩, ⟨0xF0, 0x50, .rfill⟩, ⟨0xFF, 0x60, .rset⟩, ⟨0xFF, 0x70, .rget⟩]

/-- `Kind(s)` where `Legal(s)`; `none` for a reserved selector, 0x70 among them without RGET_SUPPORTED
(40_sequencer R400, 30_encoding R320). -/
def kindOf (rgetSupported : Bool) (b : Byte) : Option Kind :=
  match selectorTable.find? (fun r => b &&& r.mask == r.pattern) with
  | some r => if r.kind = .rget ∧ rgetSupported = false then none else some r.kind
  | none => none

/-- `ArgCount(s)` (40_sequencer R400). -/
def argCount : Kind → Nat
  | .clrerr | .getcfg | .setdm => 0
  | .setgeom | .pset | .pget => 4
  | .rfill | .rset | .rget => 8

/-- The draw mode a 2-bit number encodes (10_state R110). -/
def DrawMode.ofBits (m : BitVec 2) : DrawMode :=
  match m.toNat with
  | 0 => .replace
  | 1 => .and
  | 2 => .or
  | _ => .xor

/-- The 2-bit encoding of a draw mode (10_state R110). -/
def DrawMode.bits : DrawMode → BitVec 2
  | .replace => 0
  | .and => 1
  | .or => 2
  | .xor => 3

/-- Why bytes or a bus cycle are no instruction of the engine. -/
inductive DecodeError where
  /-- The selector is reserved (30_encoding R320). -/
  | reservedSelector (b : Byte)
  /-- Fewer bytes than the command's length (30_encoding R316). -/
  | truncated
  /-- More bytes than the command's length (30_encoding R316). -/
  | trailing
  /-- A port address that is neither PORT_SC nor PORT_DATA: not the engine's (20_memory R200). -/
  | foreignPort (a : Nat)
  /-- A host address outside the four windows: not the engine's (20_memory R202). -/
  | foreignAddress (a : Nat)
  /-- A host address inside two windows: aliasing is left to the platform (20_memory R202). -/
  | aliasedAddress (a : Nat)
  deriving DecidableEq, Repr

/-- Decode a command from its selector byte on, and return the bytes that follow it. RSET's length depends on its
arguments and on the geometry (30_encoding R301, R315, R316). -/
def decodeCommand (rgetSupported : Bool) (gw gh : Coord) : List Byte → Except DecodeError (Instr × List Byte)
  | [] => .error .truncated
  | sel :: bytes =>
    match kindOf rgetSupported sel with
    | none => .error (.reservedSelector sel)
    | some k =>
      if bytes.length < argCount k then .error .truncated
      else
        let arg (i : Nat) : Coord := le16 (bytes.getD (2 * i) 0) (bytes.getD (2 * i + 1) 0)
        let rest := bytes.drop (argCount k)
        match k with
        | .clrerr => .ok (.clrerr, rest)
        | .getcfg => .ok (.getcfg, rest)
        | .setdm => .ok (.setdm (DrawMode.ofBits (sel.setWidth 2)), rest)
        | .setgeom => .ok (.setgeom (arg 0) (arg 1), rest)
        | .pset => .ok (.pset (sel.setWidth 4) (arg 0) (arg 1), rest)
        | .pget => .ok (.pget (arg 0) (arg 1), rest)
        | .rfill => .ok (.rfill (sel.setWidth 4) (arg 0) (arg 1) (arg 2) (arg 3), rest)
        | .rget => .ok (.rget (arg 0) (arg 1) (arg 2) (arg 3), rest)
        | .rset =>
          let n := rsetCount gw gh (arg 0) (arg 1) (arg 2) (arg 3)
          if rest.length < n then .error .truncated
          else .ok (.rset (arg 0) (arg 1) (arg 2) (arg 3) (rest.take n), rest.drop n)

/-- One byte access of the host: `PortRead(a)`, `PortWrite(a, v)` (00_scope R18) or an access of the host's own address
space, where the plane windows lie (20_memory R202). -/
inductive BusCycle where
  | portRead (a : Nat)
  | portWrite (a : Nat) (v : Byte)
  | hostRead (a : Nat)
  | hostWrite (a : Nat) (v : Byte)
  deriving DecidableEq, Repr

/-- Plane `p`'s window contains host address `a`: `PLANE_BASE[p] ≤ a < PLANE_BASE[p] + PLANE_BYTES` (20_memory R202). -/
def inWindow (cfg : Config) (a : Nat) (p : Plane) : Bool :=
  decide (cfg.planeBase.get p ≤ a ∧ a < cfg.planeBase.get p + cfg.planeBytes)

/-- The plane and offset a host address names (20_memory R202). -/
def windowByte (cfg : Config) (a : Nat) : Except DecodeError (Plane × Nat) :=
  match Plane.all.filter (inWindow cfg a) with
  | [] => .error (.foreignAddress a)
  | [p] => .ok (p, a - cfg.planeBase.get p)
  | _ :: _ :: _ => .error (.aliasedAddress a)

/-- The bus operation a bus cycle is (40_sequencer R401-R406). -/
def decodeBus (cfg : Config) : BusCycle → Except DecodeError Instr
  | .portRead a =>
    if a = cfg.portSc then .ok .rdStatus
    else if a = cfg.portData then .ok .rdData
    else .error (.foreignPort a)
  | .portWrite a v =>
    if a = cfg.portSc then .ok (.wrCmd v)
    else if a = cfg.portData then .ok (.wrData v)
    else .error (.foreignPort a)
  | .hostRead a => (windowByte cfg a).map fun w => .hpRd w.1 w.2
  | .hostWrite a v => (windowByte cfg a).map fun w => .hpWr w.1 w.2 v

/-- What stands for an instruction outside the machine: a command's bytes, or one bus cycle. -/
inductive Code where
  | command (bytes : List Byte)
  | cycle (c : BusCycle)
  deriving DecidableEq, Repr

/-- Decode either; a command must use all its bytes. -/
def decode (cfg : Config) (gw gh : Coord) : Code → Except DecodeError Instr
  | .command bytes =>
    match decodeCommand cfg.rgetSupported gw gh bytes with
    | .ok (i, []) => .ok i
    | .ok (_, _ :: _) => .error .trailing
    | .error e => .error e
  | .cycle c => decodeBus cfg c

/-- The bytes of a 16-bit operand, low byte first (20_memory R211). -/
def coordBytes (v : Coord) : List Byte := [loByte v, hiByte v]

/-- The RECT layout (30_encoding R310). -/
def rectBytes (x1 y1 x2 y2 : Coord) : List Byte :=
  coordBytes x1 ++ coordBytes y1 ++ coordBytes x2 ++ coordBytes y2

/-- The encoder, from the tables of 30_encoding R305, R310, R330 and R331. -/
def encode (cfg : Config) : Instr → Code
  | .clrerr => .command [0x01]
  | .getcfg => .command [0x08]
  | .setdm m => .command [0x10 ||| (DrawMode.bits m).setWidth 8]
  | .setgeom w h => .command (0x20 :: (coordBytes w ++ coordBytes h))
  | .pset c x y => .command ((0x30 ||| c.setWidth 8) :: (coordBytes x ++ coordBytes y))
  | .pget x y => .command (0x40 :: (coordBytes x ++ coordBytes y))
  | .rfill c x1 y1 x2 y2 => .command ((0x50 ||| c.setWidth 8) :: rectBytes x1 y1 x2 y2)
  | .rset x1 y1 x2 y2 data => .command (0x60 :: (rectBytes x1 y1 x2 y2 ++ data))
  | .rget x1 y1 x2 y2 => .command (0x70 :: rectBytes x1 y1 x2 y2)
  | .rdStatus => .cycle (.portRead cfg.portSc)
  | .wrCmd b => .cycle (.portWrite cfg.portSc b)
  | .wrData b => .cycle (.portWrite cfg.portData b)
  | .rdData => .cycle (.portRead cfg.portData)
  | .hpRd p off => .cycle (.hostRead (cfg.planeBase.get p + off))
  | .hpWr p off v => .cycle (.hostWrite (cfg.planeBase.get p + off) v)

/-- The bytes of a table word: byte j is bits 8j+7..8j of `w` below `nbits`, and zero above, up to the longest command
with no data (9 bytes, 30_encoding R316). -/
def tableBytes (nbits w : Nat) : List Byte :=
  (List.range (max 9 (nbits / 8))).map fun j => BitVec.ofNat 8 ((w % 2 ^ nbits) >>> (8 * j))

/-- The instruction the decoder reads from a word numbered as opcode_table.json numbers it; the geometry is that of
reset, (0, 0), under which an RSET takes no data byte. -/
def decodeTableWord (nbits w : Nat) : Option Instr :=
  match decodeCommand true 0 0 (tableBytes nbits w) with
  | .ok (i, _) => some i
  | .error _ => none

end Sys2Proof
end

