-- ==== Sys2Proof/WellFormed.lean ====
section
/-!
DEFINITION. Which instructions the encoding can carry on a given engine: the ones whose code exists and names them
alone. Spec: 00_scope R13, R18; 20_memory R202; 30_encoding R315, R320; 40_sequencer R405, R406.
-/

namespace Sys2Proof

open Sys2Proof.Machine

/-- Plane byte (p, off) exists and the host plane port reaches it: the port exists, the offset is below PLANE_BYTES, and
its host address lies in plane p's window only (20_memory R202, 40_sequencer R405). -/
def hostReachable (cfg : Config) (p : Plane) (off : Nat) : Bool :=
  cfg.hostPlanePort && decide (off < cfg.planeBytes)
    && Plane.all.all fun q => q == p || !inWindow cfg (cfg.planeBase.get p + off) q

/-- An instruction that the parameters and the geometry let the encoding carry: RGET only where supported; an RSET with
exactly the data bytes its range takes; a plane access only to a byte the host plane port reaches. -/
def Instr.wf (cfg : Config) (gw gh : Coord) : Instr → Bool
  | .rset x1 y1 x2 y2 data => data.length == rsetCount gw gh x1 y1 x2 y2
  | .rget _ _ _ _ => cfg.rgetSupported
  | .hpRd p off => hostReachable cfg p off
  | .hpWr p off _ => hostReachable cfg p off
  | .clrerr => true
  | .getcfg => true
  | .setdm _ => true
  | .setgeom _ _ => true
  | .pset _ _ _ => true
  | .pget _ _ => true
  | .rfill _ _ _ _ _ => true
  | .rdStatus => true
  | .wrCmd _ => true
  | .wrData _ => true
  | .rdData => true

end Sys2Proof
end

