-- ==== Sys2Proof/Machine/State.lean ====
section
/-!
DEFINITION. The engine's state, exactly as 10_state R100 lists it; the model's own fields beside it; the reasons a step
can stop; the state at power-on; and one named update for each group of fields.
-/

namespace Sys2Proof.Machine

/-- The memory of one plane: (offset, byte) pairs, offsets strictly rising, no byte equal to what an unlisted offset
reads as (Ops.lean). -/
abbrev PlaneMem := List Host.Cell

/-- The two agents of 00_scope R10. -/
inductive Agent where
  | host | engine
  deriving DecidableEq, Repr

/-- What the host side can do next. -/
inductive HostEvent where
  /-- One bus cycle (00_scope R18). -/
  | cycle (c : BusCycle)
  /-- WAITRDY: read STATUS until BUSY = 0 and COLL = 0 (30_encoding R351). -/
  | waitRdy
  /-- The reset input is asserted (70_reset_and_hazards R800). -/
  | reset
  deriving DecidableEq, Repr

/-- An operation, as a fault record names it (60_exceptions R750). -/
inductive Op where
  | command (k : Kind)
  | rdStatus | wrCmd | wrData | rdData | hpRd | hpWr
  deriving DecidableEq, Repr

/-- Why a fault is recorded (60_exceptions R750). -/
inductive FaultCause where
  /-- `raise Error(code)` (R720). UNDERRUN is R822's violation; ABORT and XDATA are R824's; BUSY is R820's. -/
  | error (c : ErrCode)
  /-- A CMD or DATA write after a command's last byte and before a STATUS read with BUSY = 0, no command being in Exec by
  then (R820). -/
  | unpolled
  /-- A host plane access while PHASE is not Idle (R821). -/
  | planeHazard
  deriving DecidableEq, Repr

/-- One entry of the model's fault record (60_exceptions R750). -/
structure FaultRecord where
  op : Op
  cause : FaultCause
  deriving DecidableEq, Repr

/-- The two kinds of plane access (41_datapath R470). -/
inductive AccessKind where
  | read | write
  deriving DecidableEq, Repr

/-- One event of the plane-access trace: `(Read | Write, p, off, byte)` (41_datapath R470). -/
structure Access where
  kind : AccessKind
  plane : Plane
  offset : Nat
  byte : Byte
  deriving DecidableEq, Repr

/-- The engine's state: the rows of 10_state R100, and nothing else. -/
structure Engine where
  /-- P[1..4] (R101). -/
  planes : Quad PlaneMem
  /-- DM (R110). -/
  dm : DrawMode
  /-- GW (R115). -/
  gw : Coord
  /-- GH (R116). -/
  gh : Coord
  /-- STATUS.ERR (R124). -/
  err : Bool
  /-- STATUS.ECODE (R125). -/
  ecode : ErrCode
  /-- PHASE (R140). -/
  phase : Phase
  /-- SEL (R130). -/
  sel : Byte
  /-- ARG[0..7] (R130). -/
  arg : Vector Byte 8
  /-- ARGC (R130). -/
  argc : Nat
  /-- DBUF, in the order received (R130). -/
  dbuf : List Byte
  /-- DCNT (R130). -/
  dcnt : Nat
  /-- RQ, its head first (R135). -/
  rq : List Byte
  deriving DecidableEq, Repr

/-- The engine and what the model keeps beside it. -/
structure State extends Engine where
  /-- The parameters of 00_scope R13; no step changes them. -/
  cfg : Config
  /-- The host's coming events, oldest first (20_memory R240, R241). -/
  bus : List HostEvent
  /-- The agents' coming turns (00_scope R10, 40_sequencer R416; log entry 4). -/
  sched : List Agent
  /-- The bytes the host's reads returned, newest first (log entry 5). -/
  replies : List Byte
  /-- The fault record, newest first, never cleared (60_exceptions R750; log entry 6). -/
  faults : List FaultRecord
  /-- The plane-access trace, newest first (41_datapath R470; log entry 7). -/
  trace : List Access
  /-- The next argument of Config.freeByte (log entry 8). -/
  freeIdx : Nat
  /-- The host wrote a plane byte during the command in progress (70_reset_and_hazards R821; log entry 8). -/
  hazard : Bool
  /-- A command's last byte has arrived and STATUS has not since been read with BUSY = 0 (70_reset_and_hazards R820; log
  entry 9). -/
  pollDue : Bool
  deriving DecidableEq, Repr

/-- Why the machine stops. Both are safe: no state that a run from power-on reaches stops so (Safety.lean). -/
inductive Fault where
  /-- A plane access at an offset of PLANE_BYTES or more, which names no byte (20_memory R201). Raised by HP_RD, HP_WR
  and the pixel and range commands. Safe. -/
  | planeOffset
  /-- The sequencer awaits or executes a command while SEL, ARG and DBUF hold none (10_state R140). Raised by WR_DATA and
  by the engine's fetch. Safe. -/
  | noCommand
  deriving DecidableEq, Repr

/-- What has no meaning in the model. All are safe. -/
inductive Refusal where
  /-- An instruction with no meaning yet; raised by exec's arms only. Safe. -/
  | notModelled (mnemonic : String)
  /-- A bus cycle that is not the engine's: a foreign port, a foreign address, or an address in two windows (20_memory
  R200, R202). Raised by the fetch of a host event. Safe. -/
  | notEngine (why : DecodeError)
  /-- HP_RD or HP_WR where HOST_PLANE_PORT is false (40_sequencer R405, R406; 93 I17: refuse). Safe. -/
  | noHostPlanePort
  /-- An RSET with a legal range and other than n data bytes is no command (70_reset_and_hazards R824); the engine's fetch
  never yields one. Safe. -/
  | rsetDataCount
  deriving DecidableEq, Repr

/-- The machine at power-on: parameters and INIT_PLANES as launched (00_scope R13, 10_state R102); every register as
10_state R150. SEL and ARG: DESIGN CHOICE, unsafe (log entry 2). -/
def State.powerOn (cfg : Config) (initPlanes : Quad PlaneMem) : State where
  planes := initPlanes
  dm := .replace
  gw := 0
  gh := 0
  err := false
  ecode := .none
  phase := .idle
  sel := 0
  arg := Vector.replicate 8 0
  argc := 0
  dbuf := []
  dcnt := 0
  rq := []
  cfg := cfg
  bus := []
  sched := []
  replies := []
  faults := []
  trace := []
  freeIdx := 0
  hazard := false
  pollDue := false

/-- The machine right after reset, with the default parameters and nothing listed in the planes. The launch with planes
of 0x00 is a DESIGN CHOICE, unsafe (log entry 1): `State.powerOn` gives every other. -/
def State.reset : State := State.powerOn Config.default ⟨[], [], [], []⟩

/-- Write the planes. -/
def State.setPlanes (s : State) (v : Quad PlaneMem) : State := { s with planes := v }
/-- Write DM. -/
def State.setDm (s : State) (v : DrawMode) : State := { s with dm := v }
/-- Write GW and GH. -/
def State.setGeom (s : State) (w h : Coord) : State := { s with gw := w, gh := h }
/-- Write STATUS.ERR and STATUS.ECODE. -/
def State.setStatus (s : State) (e : Bool) (c : ErrCode) : State := { s with err := e, ecode := c }
/-- Write PHASE. -/
def State.setPhase (s : State) (v : Phase) : State := { s with phase := v }
/-- Write SEL. -/
def State.setSel (s : State) (v : Byte) : State := { s with sel := v }
/-- Write ARG and ARGC. -/
def State.setArgs (s : State) (v : Vector Byte 8) (n : Nat) : State := { s with arg := v, argc := n }
/-- Write DBUF and DCNT. -/
def State.setData (s : State) (v : List Byte) (n : Nat) : State := { s with dbuf := v, dcnt := n }
/-- Write RQ. -/
def State.setRq (s : State) (v : List Byte) : State := { s with rq := v }
/-- Write the host's coming events. -/
def State.setBus (s : State) (v : List HostEvent) : State := { s with bus := v }
/-- Write the coming turns. -/
def State.setSched (s : State) (v : List Agent) : State := { s with sched := v }
/-- Return a byte to the host. -/
def State.reply (s : State) (v : Byte) : State := { s with replies := v :: s.replies }
/-- Record a fault (60_exceptions R750). -/
def State.logFault (s : State) (op : Op) (c : FaultCause) : State := { s with faults := ⟨op, c⟩ :: s.faults }
/-- Record a plane access (41_datapath R470). -/
def State.logAccess (s : State) (a : Access) : State := { s with trace := a :: s.trace }
/-- Use up one free value. -/
def State.nextFree (s : State) : State := { s with freeIdx := s.freeIdx + 1 }
/-- Note or forget that the command in progress writes undefined bytes. -/
def State.setHazard (s : State) (v : Bool) : State := { s with hazard := v }
/-- Note or forget that a poll of STATUS is due. -/
def State.setPollDue (s : State) (v : Bool) : State := { s with pollDue := v }

end Sys2Proof.Machine
end

