-- ==== Sys2Proof/Machine/Flags.lean ====
section
/-!
DEFINITION. The flags: the fields of the STATUS byte (10_state R120-R126, R141; 40_sequencer R400).
-/

namespace Sys2Proof.Machine

/-- The 4-bit code of an error (60_exceptions R710). -/
def errBits : ErrCode → BitVec 4
  | .none => 0
  | .badSel => 1
  | .busy => 2
  | .abort => 3
  | .xdata => 4
  | .underrun => 5
  | .badGeom => 6
  | .oob => 7
  | .badRange => 8

/-- STATUS.BUSY (10_state R121). -/
def State.busyFlag (s : State) : Bool := s.phase == .exec

/-- STATUS.DRDY (10_state R122). -/
def State.drdyFlag (s : State) : Bool := !s.rq.isEmpty

/-- STATUS.COLL (10_state R123). -/
def State.collFlag (s : State) : Bool := s.phase == .collect || s.phase == .data

/-- A flag as a byte, 0 or 1. -/
def flagByte (b : Bool) : Byte := if b then 1 else 0

/-- `StatusByte()` (40_sequencer R400, 10_state R120). -/
def State.statusByte (s : State) : Byte :=
  flagByte s.busyFlag ||| flagByte s.drdyFlag <<< 1 ||| flagByte s.collFlag <<< 2 ||| flagByte s.err <<< 3
    ||| (errBits s.ecode).setWidth 8 <<< 4

end Sys2Proof.Machine
end

