-- ==== Sys2Proof/Machine/Ops.lean ====
section
/-!
DEFINITION. The named operations every instruction is built from: plane memory, plane accesses with their trace, the
error action, the operand registers, validation, and the sequencer's transitions. Spec: 20_memory; 40_sequencer R410,
R411, R415; 41_datapath R470; 60_exceptions R720, R750; 70_reset_and_hazards R800, R820, R821.
-/

namespace Sys2Proof.Machine

/-- What a plane offset that the list leaves out reads as. DESIGN CHOICE, unsafe (log entry 1): the spec takes the
contents at power-on as the launch parameter INIT_PLANES (10_state R102), which `State.powerOn` lists explicitly. -/
def blankByte : Byte := 0

/-- The byte at an offset. -/
def memRead : PlaneMem → Nat → Byte
  | [], _ => blankByte
  | (b, w) :: m, a => if a = b then w else memRead m a

/-- Store a byte, keeping the canonical form. -/
def memWrite : PlaneMem → Nat → Byte → PlaneMem
  | [], a, v => if v = blankByte then [] else [(a, v)]
  | (b, w) :: m, a, v =>
    if a < b then (if v = blankByte then (b, w) :: m else (a, v) :: (b, w) :: m)
    else if a = b then (if v = blankByte then m else (a, v) :: m)
    else (b, w) :: memWrite m a v

/-- The canonical form: offsets strictly rising, no entry that reads as an unlisted one. -/
abbrev memWf (m : PlaneMem) : Prop := (m.map Prod.fst).Pairwise (· < ·) ∧ ∀ c ∈ m, c.2 ≠ blankByte

/-- `P[p][off]` (10_state R101). -/
def State.planeByte (s : State) (p : Plane) (off : Nat) : Byte := memRead (s.planes.get p) off

/-- `P[p][off] <- v` (10_state R101). -/
def State.putByte (s : State) (p : Plane) (off : Nat) (v : Byte) : State :=
  s.setPlanes (s.planes.set p (memWrite (s.planes.get p) off v))

/-- `PlaneRead(p, off)` as an event of the trace; its value is `planeByte` (00_scope R18, 41_datapath R470). -/
def State.planeRead (s : State) (p : Plane) (off : Nat) : State :=
  s.logAccess ⟨.read, p, off, s.planeByte p off⟩

/-- `PlaneWrite(p, off, v)` and its event (00_scope R18, 41_datapath R470). When the host has written a plane byte during
this command, the byte that lands is undefined: a free value (70_reset_and_hazards R821, log entry 8). -/
def State.planeWrite (s : State) (p : Plane) (off : Nat) (v : Byte) : State :=
  if s.hazard then
    ((s.putByte p off (Config.freeByte s.freeIdx)).logAccess ⟨.write, p, off, Config.freeByte s.freeIdx⟩).nextFree
  else (s.putByte p off v).logAccess ⟨.write, p, off, v⟩

/-- `raise Error(code)`: ECODE latches the first code, ERR is set, nothing else changes (60_exceptions R720); and the model
records a fault naming the operation (60_exceptions R750). -/
def raiseError (op : Op) (c : ErrCode) (s : State) : State :=
  (s.setStatus true (if s.err then s.ecode else c)).logFault op (.error c)

/-- A CMD or DATA write with a poll still due, no command being in Exec by then, violates the busy hazard; in Exec the
write raises BUSY, which records the violation itself (70_reset_and_hazards R820, 60_exceptions R750). R820 binds the next
write, so the poll is no longer due after it. DEDUCED, safe (log entry 9). -/
def notePoll (op : Op) (s : State) : State :=
  if s.pollDue && !s.busyFlag then (s.logFault op .unpolled).setPollDue false else s

/-- `RQ.push(b)` (10_state R135). -/
def State.pushResult (s : State) (b : Byte) : State := s.setRq (s.rq ++ [b])

/-- `PHASE <- Exec`: the command's last byte has arrived, so the host owes a poll (70_reset_and_hazards R820). -/
def enterExec (s : State) : State := (s.setPhase .exec).setPollDue true

/-- `PHASE <- Idle`: no command is in progress, so nothing it could write is undefined any more. -/
def toIdle (s : State) : State := (s.setPhase .idle).setHazard false

/-- `ARGC <- 0; DCNT <- 0; DBUF <- empty`. -/
def clearProgress (s : State) : State := (s.setArgs s.arg 0).setData [] 0

/-- The end of every Exec step: `PHASE <- Idle; ARGC <- 0; DCNT <- 0; DBUF <- empty` (40_sequencer R415). -/
def finish (s : State) : State := clearProgress (toIdle s)

/-- The i-th 16-bit operand of the argument registers: `LE16(ARG[2i], ARG[2i+1])` (10_state R130). -/
def State.operand (s : State) (i : Nat) : Coord := le16 (s.arg.toList.getD (2 * i) 0) (s.arg.toList.getD (2 * i + 1) 0)

/-- `Validate(SEL)` on the argument registers: `none` for OK (40_sequencer R411). -/
def validate (k : Kind) (s : State) : Option ErrCode :=
  match k with
  | .clrerr | .getcfg | .setdm => none
  | .setgeom => geomCheck s.cfg.planeBytes (s.operand 0) (s.operand 1)
  | .pset | .pget => pixelCheck s.gw s.gh (s.operand 0) (s.operand 1)
  | .rfill | .rset | .rget => rangeCheck s.gw s.gh (s.operand 0) (s.operand 1) (s.operand 2) (s.operand 3)

/-- The n of the RSET whose arguments the registers hold (40_sequencer R411, 30_encoding R315). -/
def State.dataCount (s : State) : Nat :=
  rangeLength s.gw (s.operand 0) (s.operand 1) (s.operand 2) (s.operand 3)

/-- `raise Error(v); PHASE <- Idle` on a command's last argument byte (40_sequencer R410). No data byte follows
(44_range R620), so it was the command's last byte and the host owes a poll (70_reset_and_hazards R820). -/
def rejectCommand (k : Kind) (e : ErrCode) (s : State) : State :=
  (toIdle (raiseError (.command k) e s)).setPollDue true

/-- `ArgsComplete()` (40_sequencer R410). -/
def argsComplete (k : Kind) (s : State) : State :=
  match validate k s with
  | some e => rejectCommand k e s
  | none =>
    if k = .rset then (if s.dataCount = 0 then enterExec s else s.setPhase .data)
    else enterExec s

/-- A pixel or range command's frame: a failed validation raises its error and has no further effect (40_sequencer R410,
60_exceptions R710, R735); otherwise the effect and the end of the Exec step (40_sequencer R415). `top` is the last byte
offset the effect accesses; one that does not exist faults before any access (20_memory R201), which no legal geometry
allows (41_datapath R480). -/
def runCommand (k : Kind) (check : Option ErrCode) (top : Nat) (effect : State → State) (s : State) :
    Host.Outcome State Fault Refusal :=
  match check with
  | some e => .next (toIdle (raiseError (.command k) e s))
  | none => if top < s.cfg.planeBytes then .next (finish (effect s)) else .fault .planeOffset

/-- The reset input: every register as 10_state R150, a command in progress discarded, the planes left as they are
(70_reset_and_hazards R800, R801). SEL and ARG: log entry 2. The model's records and the host's events stay. -/
def assertReset (s : State) : State :=
  (((((((((s.setDm .replace).setGeom 0 0).setStatus false .none).setPhase .idle).setSel 0).setArgs
    (Vector.replicate 8 0) 0).setData [] 0).setRq []).setHazard false).setPollDue false

end Sys2Proof.Machine
end

