-- ==== Sys2Proof/Machine/Bus.lean ====
section
/-!
DEFINITION. The six bus operations of the host (40_sequencer R401-R406).
-/

namespace Sys2Proof.Machine

/-- RD_STATUS (40_sequencer R401): the engine's state stays; the host has polled once BUSY = 0 is read
(70_reset_and_hazards R820). -/
def execRdStatus (s : State) : Host.Outcome State Fault Refusal :=
  .next ((if s.busyFlag then s else s.setPollDue false).reply s.statusByte)

/-- The part of WR_CMD after BUSY and ABORT: discard, then decode the selector (40_sequencer R402). -/
def beginCommand (b : Byte) (s : State) : State :=
  let t := (clearProgress (s.setRq [])).setHazard false
  match kindOf t.cfg.rgetSupported b with
  | none => toIdle (raiseError .wrCmd .badSel t)
  | some k => if argCount k = 0 then enterExec (t.setSel b) else (t.setSel b).setPhase .collect

/-- WR_CMD b (40_sequencer R402). -/
def execWrCmd (b : Byte) (s : State) : Host.Outcome State Fault Refusal :=
  let t := notePoll .wrCmd s
  if t.busyFlag then .next (raiseError .wrCmd .busy t)
  else .next (beginCommand b (if t.collFlag then raiseError .wrCmd .abort t else t))

/-- An argument byte: `ARG[ARGC] <- b; ARGC <- ARGC + 1` (40_sequencer R403). -/
def storeArg (b : Byte) (s : State) : State := s.setArgs (s.arg.setIfInBounds s.argc b) (s.argc + 1)

/-- A data byte: `DBUF.push(b); DCNT <- DCNT + 1` (40_sequencer R403). -/
def storeData (b : Byte) (s : State) : State := s.setData (s.dbuf ++ [b]) (s.dcnt + 1)

/-- WR_DATA b (40_sequencer R403). In Collect with a reserved selector in SEL, which no run reaches, no argument is
awaited: the machine is stuck. -/
def execWrData (b : Byte) (s : State) : Host.Outcome State Fault Refusal :=
  let t := notePoll .wrData s
  match t.phase with
  | .exec => .next (raiseError .wrData .busy t)
  | .idle => .next (raiseError .wrData .xdata t)
  | .collect =>
    match kindOf t.cfg.rgetSupported t.sel with
    | none => .fault .noCommand
    | some k =>
      let u := storeArg b t
      .next (if u.argc = argCount k then argsComplete k u else u)
  | .data =>
    let u := storeData b t
    .next (if u.dcnt = u.dataCount then enterExec u else u)

/-- RD_DATA (40_sequencer R404). -/
def execRdData (s : State) : Host.Outcome State Fault Refusal :=
  match s.rq with
  | b :: rest => .next ((s.setRq rest).reply b)
  | [] => .next ((raiseError .rdData .underrun s).reply 0x00)

/-- What both host plane accesses require: the port and the byte exist (40_sequencer R405, R406). -/
def hostAccess (off : Nat) (s s' : State) : Host.Outcome State Fault Refusal :=
  if s.cfg.hostPlanePort then (if off < s.cfg.planeBytes then .next s' else .fault .planeOffset)
  else .refused .noHostPlanePort

/-- HP_RD p, off (40_sequencer R405). While PHASE is not Idle the byte is undefined, a free value, and the model records a
hazard fault (70_reset_and_hazards R821). -/
def execHpRd (p : Plane) (off : Nat) (s : State) : Host.Outcome State Fault Refusal :=
  hostAccess off s
    (if s.phase = .idle then s.reply (s.planeByte p off)
     else ((s.logFault .hpRd .planeHazard).reply (Config.freeByte s.freeIdx)).nextFree)

/-- HP_WR p, off, v (40_sequencer R406): no combine. While PHASE is not Idle that byte and the bytes the command in
progress writes are undefined, free values, and the model records a hazard fault (70_reset_and_hazards R821). -/
def execHpWr (p : Plane) (off : Nat) (v : Byte) (s : State) : Host.Outcome State Fault Refusal :=
  hostAccess off s
    (if s.phase = .idle then s.putByte p off v
     else (((s.logFault .hpWr .planeHazard).putByte p off (Config.freeByte s.freeIdx)).setHazard true).nextFree)

end Sys2Proof.Machine
end

