-- ==== Sys2Proof/Machine/Datapath.lean ====
section
/-!
DEFINITION. The datapath's four sub-blocks and the primitives built on them (41_datapath): plane-select multiplexer,
combine-mode broadcaster, masked read-modify-write, packer; PixelWrite, PixelRead, ByteWrite, ByteRead; the walk over a
split range.
-/

namespace Sys2Proof.Machine

/-- `PlaneBit(c, p) = c[p-1]` (41_datapath R455). -/
def planeBit (c : Colour) (p : Plane) : Bool := c.getLsbD p.bit

/-- `Gather(b1, b2, b3, b4)` (41_datapath R456). -/
def gather (b : Quad Bool) : Colour :=
  (BitVec.ofBool b.p1).setWidth 4 ||| (BitVec.ofBool b.p2).setWidth 4 <<< 1 ||| (BitVec.ofBool b.p3).setWidth 4 <<< 2
    ||| (BitVec.ofBool b.p4).setWidth 4 <<< 3

/-- `Bcast(d)` (41_datapath R458). -/
def bcast (d : Bool) : Byte := if d then 0xFF else 0x00

/-- `BcastC(c, p)` (41_datapath R458). -/
def bcastC (c : Colour) (p : Plane) : Byte := bcast (planeBit c p)

/-- `Combine(m, o, d)` (41_datapath R459). -/
def combine (m : DrawMode) (o d : Byte) : Byte :=
  match m with
  | .replace => d
  | .and => o &&& d
  | .or => o ||| d
  | .xor => o ^^^ d

/-- `MRMW(m, o, d, mask)` (41_datapath R460). -/
def mrmw (m : DrawMode) (o d mask : Byte) : Byte := (o &&& ~~~mask) ||| (combine m o d &&& mask)

/-- `Pack(p, [c0, ..., c7])`: colour `c k` in bit `7 - k` (41_datapath R462). The eight terms have no bit in common, so
their sum is their OR. -/
def pack (p : Plane) (c : Nat → Colour) : Byte :=
  (List.range 8).foldl (fun acc k => acc ||| (flagByte (planeBit (c k) p) <<< (7 - k))) 0

/-- `Unpack([b1, b2, b3, b4], k)`: the colour of lane k (41_datapath R463, R485). -/
def unpack (b : Quad Byte) (k : Nat) : Colour := gather (Quad.ofFn fun p => (b.get p).getLsbD (7 - k))

/-- `PixelWrite(f, c)` (41_datapath R465). -/
def pixelWrite (f : Nat) (c : Colour) (s : State) : State :=
  let pos := (flatAddr f).1
  let mask := (flatAddr f).2
  Plane.all.foldl
    (fun t p => (t.planeRead p pos).planeWrite p pos (mrmw t.dm (t.planeByte p pos) (bcastC c p) mask)) s

/-- The value `PixelRead(f)` returns (41_datapath R466). -/
def pixelColour (s : State) (f : Nat) : Colour :=
  gather (Quad.ofFn fun p => s.planeByte p (flatAddr f).1 &&& (flatAddr f).2 != 0)

/-- The four plane reads of `PixelRead` and `ByteRead`, planes 1 to 4 (41_datapath R466, R468, R470). -/
def readPlanes (pos : Nat) (s : State) : State := Plane.all.foldl (fun t p => t.planeRead p pos) s

/-- `ByteWrite(k, [d1, d2, d3, d4])`: no read under Replace (41_datapath R467). -/
def byteWrite (k : Nat) (d : Quad Byte) (s : State) : State :=
  Plane.all.foldl
    (fun t p =>
      if t.dm = .replace then t.planeWrite p k (d.get p)
      else (t.planeRead p k).planeWrite p k (combine t.dm (t.planeByte p k) (d.get p))) s

/-- The value `ByteRead(k)` returns (41_datapath R468). -/
def byteRead (s : State) (k : Nat) : Quad Byte := Quad.ofFn fun p => s.planeByte p k

/-- Walk the range [Ls, Le] as Split divides it: head by the pixel path, interior by the byte path, tail by the pixel
path, each ascending (41_datapath R475; 44_range R610, R620, R630). -/
def overRange (ls le : Nat) (pixel byte : Nat → State → State) (s : State) : State :=
  let parts := split ls le
  let s1 := parts.head.foldl (fun t f => pixel f t) s
  let s2 := parts.interior.foldl (fun t k => byte k t) s1
  parts.tail.foldl (fun t f => pixel f t) s2

end Sys2Proof.Machine
end

