-- ==== Sys2Proof/Machine/Configure.lean ====
section
/-!
DEFINITION. The configuration commands (42_config): CLRERR, GETCFG, SETDM, SETGEOM. A command's meaning is the engine's
Exec step on it (40_sequencer R415), its validation included (40_sequencer R411, log entry 10).
-/

namespace Sys2Proof.Machine

/-- CLRERR (42_config R500). -/
def execClrerr (s : State) : Host.Outcome State Fault Refusal := .next (finish (s.setStatus false .none))

/-- GETCFG: `zext_8(DM)`, `GW[7:0]`, `GW[15:8]`, `GH[7:0]`, `GH[15:8]` (42_config R510, 30_encoding R313). -/
def execGetcfg (s : State) : Host.Outcome State Fault Refusal :=
  .next (finish (((((s.pushResult ((DrawMode.bits s.dm).setWidth 8)).pushResult (loByte s.gw)).pushResult
    (hiByte s.gw)).pushResult (loByte s.gh)).pushResult (hiByte s.gh)))

/-- SETDM m (42_config R520). -/
def execSetdm (m : DrawMode) (s : State) : Host.Outcome State Fault Refusal := .next (finish (s.setDm m))

/-- SETGEOM w, h (42_config R530). -/
def execSetgeom (w h : Coord) (s : State) : Host.Outcome State Fault Refusal :=
  match geomCheck s.cfg.planeBytes w h with
  | some e => .next (toIdle (raiseError (.command .setgeom) e s))
  | none => .next (finish (s.setGeom w h))

end Sys2Proof.Machine
end

