-- ==== Sys2Proof/Machine/Pixel.lean ====
section
/-!
DEFINITION. The pixel commands (43_pixel): PSET and PGET. A command's meaning is the engine's Exec step on it
(40_sequencer R415), its validation included (40_sequencer R411, log entry 10).
-/

namespace Sys2Proof.Machine

/-- PSET c, x, y (43_pixel R550). -/
def execPset (c : Colour) (x y : Coord) (s : State) : Host.Outcome State Fault Refusal :=
  runCommand .pset (pixelCheck s.gw s.gh x y) (flat s.gw x y / 8) (pixelWrite (flat s.gw x y) c) s

/-- `RQ.push(zext_8(PixelRead(f)))` (43_pixel R560, 44_range R630). -/
def pushPixel (f : Nat) (s : State) : State :=
  (readPlanes (flatAddr f).1 s).pushResult (resultByte (pixelColour s f))

/-- PGET x, y (43_pixel R560). -/
def execPget (x y : Coord) (s : State) : Host.Outcome State Fault Refusal :=
  runCommand .pget (pixelCheck s.gw s.gh x y) (flat s.gw x y / 8) (pushPixel (flat s.gw x y)) s

end Sys2Proof.Machine
end

