-- ==== Sys2Proof/Machine/Range.lean ====
section
/-!
DEFINITION. The range commands (44_range): RFILL, RSET and RGET. A command's meaning is the engine's Exec step on it
(40_sequencer R415), its validation included (40_sequencer R411, log entry 10).
-/

namespace Sys2Proof.Machine

/-- RFILL's effect: one colour over the range (44_range R610). -/
def fillRange (c : Colour) (ls le : Nat) (s : State) : State :=
  overRange ls le (fun f => pixelWrite f c) (fun k => byteWrite k (Quad.ofFn (bcastC c))) s

/-- RFILL c, x1, y1, x2, y2 (44_range R610). -/
def execRfill (c : Colour) (x1 y1 x2 y2 : Coord) (s : State) : Host.Outcome State Fault Refusal :=
  runCommand .rfill (rangeCheck s.gw s.gh x1 y1 x2 y2) (flat s.gw x2 y2 / 8)
    (fillRange c (flat s.gw x1 y1) (flat s.gw x2 y2)) s

/-- `col(f) = DBUF[f - Ls][3:0]` (44_range R620, 30_encoding R312). -/
def rangeColour (data : List Byte) (ls f : Nat) : Colour := dataColour (data.getD (f - ls) 0)

/-- RSET's effect: one colour a pixel, packed in the interior (44_range R620). -/
def setRange (data : List Byte) (ls le : Nat) (s : State) : State :=
  overRange ls le (fun f => pixelWrite f (rangeColour data ls f))
    (fun k => byteWrite k (Quad.ofFn fun p => pack p fun j => rangeColour data ls (8 * k + j))) s

/-- RSET x1, y1, x2, y2, data (44_range R620). After a failed validation the data phase does not start, and each data byte
the host still writes raises XDATA (44_range R620, 40_sequencer R403). -/
def execRset (x1 y1 x2 y2 : Coord) (data : List Byte) (s : State) : Host.Outcome State Fault Refusal :=
  match rangeCheck s.gw s.gh x1 y1 x2 y2 with
  | some e => .next (data.foldl (fun t _ => raiseError .wrData .xdata t) (toIdle (raiseError (.command .rset) e s)))
  | none =>
    if data.length = rangeLength s.gw x1 y1 x2 y2 then
      runCommand .rset none (flat s.gw x2 y2 / 8) (setRange data (flat s.gw x1 y1) (flat s.gw x2 y2)) s
    else .refused .rsetDataCount

/-- An interior byte of RGET: four plane reads, then the eight lanes in order (44_range R630). -/
def pushByte (k : Nat) (s : State) : State :=
  (List.range 8).foldl (fun t j => t.pushResult (resultByte (unpack (byteRead s k) j))) (readPlanes k s)

/-- RGET's effect (44_range R630). -/
def getRange (ls le : Nat) (s : State) : State := overRange ls le pushPixel pushByte s

/-- RGET x1, y1, x2, y2 (44_range R630). Selector 0x70 without RGET_SUPPORTED never decodes (30_encoding R320). -/
def execRget (x1 y1 x2 y2 : Coord) (s : State) : Host.Outcome State Fault Refusal :=
  runCommand .rget (rangeCheck s.gw s.gh x1 y1 x2 y2) (flat s.gw x2 y2 / 8)
    (getRange (flat s.gw x1 y1) (flat s.gw x2 y2)) s

end Sys2Proof.Machine
end

