-- ==== Sys2Proof/Machine/Dispatch.lean ====
section
/-!
DEFINITION. One arm for each instruction: a direct call of its meaning.
-/

namespace Sys2Proof.Machine

def exec (i : Instr) (s : State) : Host.Outcome State Fault Refusal :=
  match i with
  | .clrerr => Sys2Proof.Machine.execClrerr s
  | .getcfg => Sys2Proof.Machine.execGetcfg s
  | .setdm m => Sys2Proof.Machine.execSetdm m s
  | .setgeom w h => Sys2Proof.Machine.execSetgeom w h s
  | .pset c x y => Sys2Proof.Machine.execPset c x y s
  | .pget x y => Sys2Proof.Machine.execPget x y s
  | .rfill c x1 y1 x2 y2 => Sys2Proof.Machine.execRfill c x1 y1 x2 y2 s
  | .rset x1 y1 x2 y2 data => Sys2Proof.Machine.execRset x1 y1 x2 y2 data s
  | .rget x1 y1 x2 y2 => Sys2Proof.Machine.execRget x1 y1 x2 y2 s
  | .rdStatus => Sys2Proof.Machine.execRdStatus s
  | .wrCmd b => Sys2Proof.Machine.execWrCmd b s
  | .wrData b => Sys2Proof.Machine.execWrData b s
  | .rdData => Sys2Proof.Machine.execRdData s
  | .hpRd p off => Sys2Proof.Machine.execHpRd p off s
  | .hpWr p off v => Sys2Proof.Machine.execHpWr p off v s

end Sys2Proof.Machine
end

