-- ==== Sys2Proof/Machine/Fetch.lean ====
section
/-!
DEFINITION. What the next step runs: whose turn it is (00_scope R10, 40_sequencer R415, R416), the pending command the
engine reads from SEL, ARG and DBUF, and the host's next event (20_memory R240, R241).
-/

namespace Sys2Proof.Machine

/-- The agent whose turn it is; when no coming turn is listed, the engine's, so that it is eventually scheduled
(40_sequencer R416, weak fairness; log entry 4). -/
def State.turn (s : State) : Agent := s.sched.headD .engine

/-- The turn is used up. -/
def State.popTurn (s : State) : State := s.setSched s.sched.tail

/-- The engine moves: it is enabled, exactly when PHASE = Exec (40_sequencer R415), and it is its turn or the host has
nothing to do. -/
def State.engineMoves (s : State) : Bool :=
  s.phase == .exec && (s.turn == .engine || s.bus.isEmpty)

/-- The bytes of the command in progress: SEL, its argument bytes, its data bytes (10_state R130). -/
def State.commandBytes (s : State) : List Byte :=
  match kindOf s.cfg.rgetSupported s.sel with
  | some k => s.sel :: (s.arg.toList.take (argCount k) ++ s.dbuf)
  | none => [s.sel]

/-- The command whose effect is pending (40_sequencer R415). -/
def State.pendingCommand (s : State) : Option Instr :=
  match decode s.cfg s.gw s.gh (.command s.commandBytes) with
  | .ok i => some i
  | .error _ => none

/-- What a step does. -/
inductive Fetched where
  /-- Run an instruction on this state. -/
  | run (i : Instr) (s : State)
  /-- Go on to this state: a reset was asserted, or no agent has anything to do. -/
  | goOn (s : State)
  /-- The engine's command registers hold no command. -/
  | stuck
  /-- A bus cycle that is not the engine's. -/
  | foreign (why : DecodeError)
  deriving DecidableEq, Repr

/-- WAITRDY goes round again while BUSY or COLL is 1 (30_encoding R351). -/
def State.mustWait (s : State) : Bool := s.statusByte &&& 0x05 != 0

/-- The host's next event on a state whose turn is used up. -/
def fetchHost (s : State) : Fetched :=
  match s.bus with
  | [] => .goOn s
  | .cycle c :: rest =>
    match decodeBus s.cfg c with
    | .ok i => .run i (s.setBus rest)
    | .error e => .foreign e
  | .waitRdy :: rest => .run .rdStatus (if s.mustWait then s else s.setBus rest)
  | .reset :: rest => .goOn (assertReset (s.setBus rest))

/-- The engine's pending command on a state whose turn is used up. -/
def fetchEngine (s : State) : Fetched :=
  match s.pendingCommand with
  | some i => .run i s
  | none => .stuck

/-- What the next step does. -/
def fetch (s : State) : Fetched := if s.engineMoves then fetchEngine s.popTurn else fetchHost s.popTurn

/-- Make the command of a table word the pending one, as if its bytes had arrived, a poll due as after any last byte
(70_reset_and_hazards R820), the next turn the engine's: the bytes go into SEL and ARG, and an RSET whose range is legal
gets its data bytes, all 0 (log entry 11). -/
def placeCommand (bytes : List Byte) (s : State) : State :=
  let t := enterExec ((s.setSel (bytes.getD 0 0)).setArgs (Vector.ofFn fun i => bytes.getD (i.val + 1) 0)
    (((kindOf s.cfg.rgetSupported (bytes.getD 0 0)).map argCount).getD 0))
  let n := if kindOf s.cfg.rgetSupported (bytes.getD 0 0) = some .rset ∧ validate .rset t = none then t.dataCount else 0
  (t.setData ((List.range n).map fun j => bytes.getD (9 + j) 0) n).setSched (.engine :: s.sched)

end Sys2Proof.Machine
end

