-- ==== Sys2Proof/Machine/Step.lean ====
section
/-!
DEFINITION. One step of the whole system: the agent whose turn it is moves (00_scope R10; 20_memory R240).
-/

namespace Sys2Proof.Machine

/-- One step: a host bus operation, one round of a host WAITRDY, a reset, or the engine's Exec step. -/
def step (s : State) : Host.Outcome State Fault Refusal :=
  match fetch s with
  | .run i t => exec i t
  | .goOn t => .next t
  | .stuck => .fault .noCommand
  | .foreign why => .refused (.notEngine why)

/-- `s` with the command of a table word pending, so that the very next step is the engine's Exec step on it
(log entry 11). -/
def State.withFetchWord (s : State) (nbits w : Nat) : State := placeCommand (tableBytes nbits w) s

end Sys2Proof.Machine
end

