-- ==== Sys2Proof/Machine/Assembler.lean ====
section
/-!
DEFINITION. The assembler: what each line of 30_encoding R330 and R331 and each pseudo-instruction of R350-R361 makes the
host do, and the line's text.
-/

namespace Sys2Proof.Machine

/-- A line of assembly. -/
inductive AsmLine where
  /-- A command (30_encoding R330) or a bus operation (30_encoding R331). -/
  | instr (i : Instr)
  /-- `WAITRDY` (30_encoding R351). -/
  | waitRdy
  /-- `RDRES k` (30_encoding R352). -/
  | rdRes (k : Nat)
  /-- `CLEAR c` (30_encoding R360). -/
  | clear (c : Colour)
  /-- `RECT c, x1, y1, x2, y2` (30_encoding R361). -/
  | rect (c : Colour) (x1 y1 x2 y2 : Coord)
  deriving DecidableEq, Repr

/-- The bus operations of an instruction: a command is one `OUT SC, selector`, then one `OUT DATA, b` for each argument and
data byte, in order (30_encoding R350). -/
def expandInstr (cfg : Config) (i : Instr) : List HostEvent :=
  match encode cfg i with
  | .cycle c => [.cycle c]
  | .command [] => []
  | .command (sel :: bytes) =>
    .cycle (.portWrite cfg.portSc sel) :: bytes.map fun b => .cycle (.portWrite cfg.portData b)

/-- What a line makes the host do; `gw` and `gh` are the geometry the host last set (30_encoding R360). -/
def assemble (cfg : Config) (gw gh : Coord) : AsmLine → List HostEvent
  | .instr i => expandInstr cfg i
  | .waitRdy => [.waitRdy]
  | .rdRes k => List.replicate k (.cycle (.portRead cfg.portData))
  | .clear c => expandInstr cfg (.rfill c 0 0 (gw - 1) (gh - 1)) ++ [.waitRdy]
  | .rect c x1 y1 x2 y2 =>
    (ascending y1.toNat (y2.toNat + 1)).flatMap fun y =>
      expandInstr cfg (.rfill c x1 (BitVec.ofNat 16 y) x2 (BitVec.ofNat 16 y)) ++ [.waitRdy]

/-- A draw mode's name (30_encoding R330). -/
def modeText : DrawMode → String
  | .replace => "REPLACE"
  | .and => "AND"
  | .or => "OR"
  | .xor => "XOR"

/-- A mnemonic and its operands, separated by commas (30_encoding R330). -/
def lineText (mnemonic : String) (operands : List String) : String :=
  if operands.isEmpty then mnemonic else mnemonic ++ " " ++ String.intercalate ", " operands

/-- The plane's number. -/
def planeText (p : Plane) : String := toString (p.bit + 1)

/-- A command's or a bus operation's line, numbers in decimal (30_encoding R330, R331). -/
def instrText : Instr → String
  | .clrerr => lineText "CLRERR" []
  | .getcfg => lineText "GETCFG" []
  | .setdm m => lineText "SETDM" [modeText m]
  | .setgeom w h => lineText "SETGEOM" [toString w.toNat, toString h.toNat]
  | .pset c x y => lineText "PSET" [toString c.toNat, toString x.toNat, toString y.toNat]
  | .pget x y => lineText "PGET" [toString x.toNat, toString y.toNat]
  | .rfill c x1 y1 x2 y2 =>
    lineText "RFILL" [toString c.toNat, toString x1.toNat, toString y1.toNat, toString x2.toNat, toString y2.toNat]
  | .rset x1 y1 x2 y2 data =>
    lineText "RSET" [toString x1.toNat, toString y1.toNat, toString x2.toNat, toString y2.toNat,
      "[" ++ String.intercalate ", " (data.map fun b => toString b.toNat) ++ "]"]
  | .rget x1 y1 x2 y2 =>
    lineText "RGET" [toString x1.toNat, toString y1.toNat, toString x2.toNat, toString y2.toNat]
  | .rdStatus => lineText "IN" ["SC"]
  | .wrCmd b => lineText "OUT" ["SC", toString b.toNat]
  | .wrData b => lineText "OUT" ["DATA", toString b.toNat]
  | .rdData => lineText "IN" ["DATA"]
  | .hpRd p off => lineText "LDP" [planeText p, toString off]
  | .hpWr p off v => lineText "STP" [planeText p, toString off, toString v.toNat]

/-- A line's text (30_encoding R330, R331, R351, R352, R360, R361). -/
def asmText : AsmLine → String
  | .instr i => instrText i
  | .waitRdy => lineText "WAITRDY" []
  | .rdRes k => lineText "RDRES" [toString k]
  | .clear c => lineText "CLEAR" [toString c.toNat]
  | .rect c x1 y1 x2 y2 =>
    lineText "RECT" [toString c.toNat, toString x1.toNat, toString y1.toNat, toString x2.toNat, toString y2.toNat]

end Sys2Proof.Machine
end

