-- ==== Sys2Proof/Safety.lean ====
section
/-!
DEFINITION. What counts as a safe run (60_exceptions R750) and the invariant of the machine: the facts the spec states of
every state a run reaches.
-/

namespace Sys2Proof.Machine

/-- No fault is recorded: the runs that a claim may speak of (60_exceptions R750). -/
def State.clean (s : State) : Prop := s.faults = []

/-- Every plane is in canonical form and holds only bytes that exist (10_state R101). -/
def State.planesOk (s : State) : Prop :=
  ∀ p, memWf (s.planes.get p) ∧ ∀ c ∈ s.planes.get p, c.1 < s.cfg.planeBytes

/-- GW and GH are a pair SETGEOM accepts, or the (0, 0) of reset (10_state R118). -/
def State.geomOk (s : State) : Prop :=
  (s.gw = 0 ∧ s.gh = 0) ∨ geomLegal s.cfg.planeBytes s.gw s.gh = true

/-- ECODE is NONE exactly while ERR is 0 (10_state R125). -/
def State.statusOk (s : State) : Prop := s.err = false ↔ s.ecode = .none

/-- What SEL, ARGC, DBUF, DCNT and RQ hold in each phase (10_state R131, R135, R140; 40_sequencer R404, R411). -/
def State.sequencerOk (s : State) : Prop :=
  match s.phase with
  | .idle => s.dbuf = [] ∧ s.dcnt = 0 ∧ s.argc ≤ 8 ∧ s.hazard = false
  | .collect => ∃ k, kindOf s.cfg.rgetSupported s.sel = some k ∧ s.argc < argCount k ∧ s.dbuf = [] ∧ s.dcnt = 0 ∧ s.rq = []
  | .data =>
    kindOf s.cfg.rgetSupported s.sel = some .rset ∧ s.argc = 8 ∧ validate .rset s = none ∧ s.dcnt = s.dbuf.length
      ∧ s.dcnt < s.dataCount ∧ s.rq = []
  | .exec =>
    ∃ k, kindOf s.cfg.rgetSupported s.sel = some k ∧ s.argc = argCount k ∧ validate k s = none
      ∧ s.dcnt = s.dbuf.length ∧ s.dcnt = (if k = .rset then s.dataCount else 0) ∧ s.rq = [] ∧ s.pollDue = true

/-- RQ holds at most `8 * PLANE_BYTES` bytes (10_state R135). -/
def State.resultsOk (s : State) : Prop := s.rq.length ≤ 8 * s.cfg.planeBytes

/-! ### The terms the statements use -/

/-- Plane `p`'s bit of the pixel at flat index `f`: lane `f mod 8` of byte `f div 8` (41_datapath R485). -/
def State.lane (s : State) (p : Plane) (f : Nat) : Bool := (s.planeByte p (f / 8)).getLsbD (7 - f % 8)

/-- A draw mode on one bit: old bit `b`, data bit `d` (10_state R110, 43_pixel R551). -/
def combineBit : DrawMode → Bool → Bool → Bool
  | .replace, _, d => d
  | .and, b, d => b && d
  | .or, b, d => b || d
  | .xor, b, d => b ^^ d

/-- A draw mode on colours: the composition law of 43_pixel R552. -/
def combineColour : DrawMode → Colour → Colour → Colour
  | .replace, _, d => d
  | .and, c, d => c &&& d
  | .or, c, d => c ||| d
  | .xor, c, d => c ^^^ d

/-- Instructions one after the other, stopping at the first stop. -/
def issue : List Instr → State → Host.Outcome State Fault Refusal
  | [], s => .next s
  | i :: rest, s =>
    match exec i s with
    | .next t => issue rest t
    | .fault f => .fault f
    | .refused r => .refused r

/-- The bus operations that carry a command: its selector to CMD, every other byte to DATA (30_encoding R300, R350). -/
def transfers (cfg : Config) (i : Instr) : List Instr :=
  match encode cfg i with
  | .command (sel :: bytes) => .wrCmd sel :: bytes.map .wrData
  | .command [] => []
  | .cycle _ => []

/-- A command, as against a bus operation (00_scope R11). -/
def isCommand : Instr → Bool
  | .clrerr | .getcfg | .setdm _ | .setgeom _ _ | .pset _ _ _ | .pget _ _ | .rfill _ _ _ _ _ | .rset _ _ _ _ _
  | .rget _ _ _ _ => true
  | .rdStatus | .wrCmd _ | .wrData _ | .rdData | .hpRd _ _ | .hpWr _ _ _ => false

/-- What a command's own validation answers on its operands (40_sequencer R411). -/
def checkOperands (s : State) : Instr → Option ErrCode
  | .setgeom w h => geomCheck s.cfg.planeBytes w h
  | .pset _ x y | .pget x y => pixelCheck s.gw s.gh x y
  | .rfill _ x1 y1 x2 y2 | .rset x1 y1 x2 y2 _ | .rget x1 y1 x2 y2 => rangeCheck s.gw s.gh x1 y1 x2 y2
  | .clrerr | .getcfg | .setdm _ | .rdStatus | .wrCmd _ | .wrData _ | .rdData | .hpRd _ _ | .hpWr _ _ _ => none

/-- An outcome with its next state seen through `view`. -/
def viewOutcome {α : Type} (view : State → α) : Host.Outcome State Fault Refusal → Host.Outcome α Fault Refusal
  | .next s => .next (view s)
  | .fault f => .fault f
  | .refused r => .refused r

/-- The invariant of the machine. -/
structure State.Inv (s : State) : Prop where
  cfg : s.cfg.wf
  planes : s.planesOk
  geom : s.geomOk
  status : s.statusOk
  sequencer : s.sequencerOk
  results : s.resultsOk

end Sys2Proof.Machine
end

