-- ==== Sys2Proof/Certificates/Slice0/Obligations.lean ====
section
/-!
DEFINITION. The statements for the provers, from the numbered rules of the spec. Each docstring names the rules it
formalises. Statements about flags, registers and frames are written as the whole next state, so that everything a record
does not name is unchanged; `planeByte` is the model's read of one plane byte.
-/

open Sys2Proof Sys2Proof.Machine

/-! ### Reset -/

/-- R150, R800, R801: every register after reset, at power-on and later; planes INIT_PLANES at power-on, kept by a later
reset; a command in progress is gone. -/
def Obligations.ResetLeavesRegisters : Prop :=
  (∀ (cfg : Config) (init : Quad PlaneMem), (State.powerOn cfg init).planes = init) ∧
  (∀ s : State, (assertReset s).planes = s.planes) ∧
  ∀ s : State, ((∃ cfg init, s = State.powerOn cfg init) ∨ ∃ u, s = assertReset u) →
    s.dm = .replace ∧ s.gw = 0 ∧ s.gh = 0 ∧ s.err = false ∧ s.ecode = .none ∧ s.statusByte = 0 ∧ s.phase = .idle ∧
      s.argc = 0 ∧ s.dcnt = 0 ∧ s.dbuf = [] ∧ s.rq = []

/-- R800: when the host side's next event is the reset input, the step is that reset, even with a command in progress. -/
def Obligations.ResetEventResets : Prop :=
  ∀ (s : State) (rest : List HostEvent), s.engineMoves = false → s.bus = .reset :: rest →
    step s = .next (assertReset (s.popTurn.setBus rest))

/-- The invariant holds at power-on with every INIT_PLANES and every legal parameter, and at State.reset. -/
def Obligations.PowerOnMeetsInvariant : Prop :=
  (∀ (cfg : Config) (init : Quad PlaneMem), cfg.wf →
      (∀ p, memWf (init.get p) ∧ ∀ c ∈ init.get p, c.1 < cfg.planeBytes) → (State.powerOn cfg init).Inv) ∧
    State.reset.Inv

/-! ### Steps and scheduling -/

/-- R415: on its turn the engine runs exactly the command that SEL, ARG and DBUF hold. -/
def Obligations.EngineStepRunsPendingCommand : Prop :=
  ∀ (s : State) (i : Instr), s.engineMoves = true → s.pendingCommand = some i → step s = exec i s.popTurn

/-- R240, R241, R351: on its turn the host's first event is run: a bus cycle as the operation it decodes to, WAITRDY as one
RD_STATUS that stays first while BUSY or COLL is 1; with no event nothing changes but the turn. The list of host events,
the turns and the empty step are the model's choice (log entry 4). -/
def Obligations.HostStepRunsFirstEvent : Prop :=
  ∀ s : State, s.engineMoves = false →
    (∀ c rest i, s.bus = .cycle c :: rest → decodeBus s.cfg c = .ok i → step s = exec i (s.popTurn.setBus rest)) ∧
    (∀ rest, s.bus = .waitRdy :: rest →
      step s = exec .rdStatus
        (if s.phase = .idle then s.popTurn.setBus rest else s.popTurn)) ∧
    (s.bus = [] → step s = .next s.popTurn)

/-- R416: a pending command waits for finitely many turns only: either the engine moves, or the step uses up one of the
listed turns, and with none listed the engine moves. -/
def Obligations.EngineWaitsFinitely : Prop :=
  ∀ s t : State, s.phase = .exec → step s = .next t →
    s.engineMoves = true ∨ (s.sched ≠ [] ∧ t.sched.length + 1 = s.sched.length)

/-! ### Encoding -/

/-- R330, R331, R310: bytes and bus cycles written out from the spec's encodings decode to what they stand for. -/
def Obligations.SpecWordsDecode : Prop :=
  decode Config.default 640 400 (.command [0x20, 0x80, 0x02, 0x90, 0x01]) = .ok (.setgeom 640 400) ∧
  decode Config.default 640 400 (.command [0x3A, 0x0D, 0x00, 0x02, 0x00]) = .ok (.pset 10 13 2) ∧
  decode Config.default 640 400 (.command [0x53, 0x7C, 0x02, 0x00, 0x00, 0x03, 0x00, 0x01, 0x00]) = .ok (.rfill 3 636 0 3 1) ∧
  decode Config.default 640 400 (.command [0x13]) = .ok (.setdm .xor) ∧
  decode Config.default 640 400 (.cycle (.portWrite Config.default.portSc 0x35)) = .ok (.wrCmd 0x35) ∧
  decode Config.default 640 400 (.cycle (.portRead Config.default.portData)) = .ok .rdData

/-- R305, R316: decoding what the encoder gives for a well-formed instruction gives the instruction, with every operand at
every value. -/
def Obligations.DecodeOfEncode : Prop :=
  ∀ (cfg : Config) (gw gh : Coord) (i : Instr), cfg.wf → i.wf cfg gw gh = true → decode cfg gw gh (encode cfg i) = .ok i

/-- R322: a command's bytes have one reading and no bit of them is lost: encoding what they decode to gives them back, and
what they decode to is well formed. -/
def Obligations.EncodeOfDecode : Prop :=
  ∀ (cfg : Config) (gw gh : Coord) (bytes : List Byte) (i : Instr), decode cfg gw gh (.command bytes) = .ok i →
    encode cfg i = .command bytes ∧ i.wf cfg gw gh = true

/-- R320: the reserved selectors, and the BADSEL that writing one raises in Idle, where it starts no command. -/
def Obligations.ReservedSelectorsRaiseBadsel : Prop :=
  (∀ b : Byte, kindOf true b = none ↔
    b = 0x00 ∨ (0x02 ≤ b ∧ b ≤ 0x07) ∨ (0x09 ≤ b ∧ b ≤ 0x0F) ∨ (0x14 ≤ b ∧ b ≤ 0x1F) ∨ (0x21 ≤ b ∧ b ≤ 0x2F) ∨
      (0x41 ≤ b ∧ b ≤ 0x4F) ∨ (0x61 ≤ b ∧ b ≤ 0x6F) ∨ 0x71 ≤ b) ∧
  (∀ b : Byte, kindOf false b = none ↔ kindOf true b = none ∨ b = 0x70) ∧
  ∀ (s : State) (b : Byte), s.phase ≠ .exec → kindOf s.cfg.rgetSupported b = none →
    ∃ t, exec (.wrCmd b) s = .next t ∧ t.phase = .idle ∧ t.err = true ∧ ⟨.wrCmd, .error .badSel⟩ ∈ t.faults ∧
      (s.phase = .idle → s.err = false → t.ecode = .badSel)

/-- R300, R350, R410, R415: from Idle, writing a well-formed command's selector and bytes through the ports leaves exactly
that command pending, or, where its validation fails, raises that error and leaves Idle; either way no plane byte, draw mode
or geometry has changed. -/
def Obligations.TransfersReachExec : Prop :=
  ∀ (s : State) (i : Instr), s.phase = .idle → isCommand i = true → i.wf s.cfg s.gw s.gh = true →
    ∃ u, issue (transfers s.cfg i) s = .next u ∧ u.planes = s.planes ∧ u.dm = s.dm ∧ u.gw = s.gw ∧ u.gh = s.gh ∧
      u.rq = [] ∧ u.hazard = false ∧
      (checkOperands s i = none → u.phase = .exec ∧ u.pendingCommand = some i ∧ u.err = s.err) ∧
      ∀ e, checkOperands s i = some e → u.phase = .idle ∧ u.err = true ∧ (s.err = false → u.ecode = e)

/-! ### Configuration commands -/

/-- R500 with R415: CLRERR's whole next state. -/
def Obligations.ClrerrClearsStatus : Prop :=
  ∀ s : State, exec .clrerr s = .next
    { s with err := false, ecode := .none, phase := .idle, argc := 0, dbuf := [], dcnt := 0, hazard := false }

/-- R510 with R415: GETCFG's whole next state. -/
def Obligations.GetcfgPushesRegisters : Prop :=
  ∀ s : State, ∃ m : Byte,
    exec .getcfg s = .next
      { s with rq := s.rq ++ [m, s.gw.extractLsb' 0 8, s.gw.extractLsb' 8 8, s.gh.extractLsb' 0 8, s.gh.extractLsb' 8 8],
               phase := .idle, argc := 0, dbuf := [], dcnt := 0, hazard := false } ∧
    (s.dm = .replace → m = 0) ∧ (s.dm = .and → m = 1) ∧ (s.dm = .or → m = 2) ∧ (s.dm = .xor → m = 3)

/-- R520 with R415: SETDM's whole next state, and the selector that carries each mode (R306). -/
def Obligations.SetdmWritesDrawMode : Prop :=
  (∀ (s : State) (m : DrawMode), exec (.setdm m) s = .next
    { s with dm := m, phase := .idle, argc := 0, dbuf := [], dcnt := 0, hazard := false }) ∧
  ∀ (cfg : Config), encode cfg (.setdm .replace) = .command [0x10] ∧ encode cfg (.setdm .and) = .command [0x11] ∧
    encode cfg (.setdm .or) = .command [0x12] ∧ encode cfg (.setdm .xor) = .command [0x13]

/-- R530 with R415, R720 and R750: SETGEOM's whole next state, on a legal and on an illegal geometry. -/
def Obligations.SetgeomWritesOrRefuses : Prop :=
  ∀ (s : State) (w h : Coord),
    (w.toNat % 8 = 0 ∧ 8 ≤ w.toNat ∧ 1 ≤ h.toNat ∧ w.toNat / 8 * h.toNat ≤ s.cfg.planeBytes →
      exec (.setgeom w h) s = .next
        { s with gw := w, gh := h, phase := .idle, argc := 0, dbuf := [], dcnt := 0, hazard := false }) ∧
    (¬(w.toNat % 8 = 0 ∧ 8 ≤ w.toNat ∧ 1 ≤ h.toNat ∧ w.toNat / 8 * h.toNat ≤ s.cfg.planeBytes) →
      exec (.setgeom w h) s = .next
        { s with err := true, ecode := if s.err then s.ecode else .badGeom, phase := .idle, hazard := false,
                 faults := ⟨.command .setgeom, .error .badGeom⟩ :: s.faults })

/-! ### Pixel commands -/

/-- R550: PSET in bounds: in every plane the byte at `pos` takes MRMW, every other byte stays; 4 reads and 4 writes, planes
1 to 4, reach the trace (R465, R470); nothing else changes but the end of the step (R415). -/
def Obligations.PsetWritesOnePixel : Prop :=
  ∀ (s : State) (c : Colour) (x y : Coord), s.planesOk → s.geomOk → s.hazard = false →
    x.toNat < s.gw.toNat → y.toNat < s.gh.toNat →
    ∃ t, exec (.pset c x y) s = .next t ∧
      (∀ p, t.planeByte p (bitAddr s.gw x y).1 =
        mrmw s.dm (s.planeByte p (bitAddr s.gw x y).1) (bcastC c p) (bitAddr s.gw x y).2) ∧
      (∀ p off, off ≠ (bitAddr s.gw x y).1 → t.planeByte p off = s.planeByte p off) ∧
      t = { s with
        planes := t.planes, phase := .idle, argc := 0, dbuf := [], dcnt := 0
        trace := (Plane.all.flatMap fun p =>
          [⟨.read, p, (bitAddr s.gw x y).1, s.planeByte p (bitAddr s.gw x y).1⟩,
           ⟨.write, p, (bitAddr s.gw x y).1, t.planeByte p (bitAddr s.gw x y).1⟩]).reverse ++ s.trace }

/-- R551: PSET's truth table on the addressed bit, and every other pixel of every plane as before. -/
def Obligations.PsetFollowsTruthTable : Prop :=
  ∀ (s : State) (c : Colour) (x y : Coord) (t : State), s.planesOk → s.geomOk → s.hazard = false →
    x.toNat < s.gw.toNat → y.toNat < s.gh.toNat → exec (.pset c x y) s = .next t →
    ∀ p f, t.lane p f =
      if f = y.toNat * s.gw.toNat + x.toNat then combineBit s.dm (s.lane p f) (c.getLsbD p.bit) else s.lane p f

/-- R560: PGET in bounds: one result byte, bit p-1 the addressed bit of plane p, bits 7:4 zero; four plane reads; no plane
byte changes. -/
def Obligations.PgetPushesColour : Prop :=
  ∀ (s : State) (x y : Coord), s.geomOk → x.toNat < s.gw.toNat → y.toNat < s.gh.toNat →
    ∃ b : Byte,
      exec (.pget x y) s = .next { s with
        rq := s.rq ++ [b], phase := .idle, argc := 0, dbuf := [], dcnt := 0, hazard := false
        trace := (Plane.all.map fun p =>
          ⟨.read, p, (bitAddr s.gw x y).1, s.planeByte p (bitAddr s.gw x y).1⟩).reverse ++ s.trace } ∧
      (∀ p : Plane, b.getLsbD p.bit = true ↔ s.planeByte p (bitAddr s.gw x y).1 &&& (bitAddr s.gw x y).2 ≠ 0) ∧
      ∀ j, 4 ≤ j → b.getLsbD j = false

/-- R550, R560, R117, R720, R750: PSET and PGET outside the geometry, an empty one among them: OOB, no plane access, no
result; the whole next state. -/
def Obligations.PixelOutOfBoundsRaisesOob : Prop :=
  ∀ (s : State) (x y : Coord), ¬(x.toNat < s.gw.toNat ∧ y.toNat < s.gh.toNat) →
    (∀ c, exec (.pset c x y) s = .next
      { s with err := true, ecode := if s.err then s.ecode else .oob, phase := .idle, hazard := false,
               faults := ⟨.command .pset, .error .oob⟩ :: s.faults }) ∧
    exec (.pget x y) s = .next
      { s with err := true, ecode := if s.err then s.ecode else .oob, phase := .idle, hazard := false,
               faults := ⟨.command .pget, .error .oob⟩ :: s.faults }

/-- R552: the composition laws, over the Exec steps of the commands in the order given. -/
def Obligations.DrawModesCompose : Prop :=
  ∀ (s : State) (c1 c2 : Colour) (x y : Coord), s.planesOk → s.geomOk → s.hazard = false →
    x.toNat < s.gw.toNat → y.toNat < s.gh.toNat →
    (∃ t, issue [.setdm .replace, .pset c1 x y, .pget x y] s = .next t ∧ t.rq = s.rq ++ [c1.setWidth 8]) ∧
    ∀ m, ∃ t, issue [.setdm .replace, .pset c1 x y, .setdm m, .pset c2 x y, .pget x y] s = .next t ∧
      t.rq = s.rq ++ [(combineColour m c1 c2).setWidth 8]

/-! ### Range commands -/

/-- R610, R640: RFILL on a legal range: every pixel of [Ls, Le] takes the draw mode of the colour's bit in every plane,
every other pixel of every plane stays, every byte outside the range's bytes stays, and nothing else changes but the
trace and the end of the step (R415). -/
def Obligations.RfillFillsRange : Prop :=
  ∀ (s : State) (c : Colour) (x1 y1 x2 y2 : Coord), s.planesOk → s.geomOk → s.hazard = false →
    x1.toNat < s.gw.toNat → y1.toNat < s.gh.toNat → x2.toNat < s.gw.toNat → y2.toNat < s.gh.toNat →
    flat s.gw x1 y1 ≤ flat s.gw x2 y2 →
    ∃ t, exec (.rfill c x1 y1 x2 y2) s = .next t ∧
      (∀ p f, t.lane p f =
        if flat s.gw x1 y1 ≤ f ∧ f ≤ flat s.gw x2 y2 then combineBit s.dm (s.lane p f) (c.getLsbD p.bit)
        else s.lane p f) ∧
      (∀ p off, off < flat s.gw x1 y1 / 8 ∨ flat s.gw x2 y2 / 8 < off → t.planeByte p off = s.planeByte p off) ∧
      t = { s with planes := t.planes, trace := t.trace, phase := .idle, argc := 0, dbuf := [], dcnt := 0 }

/-- R620, R640, R312: RSET on a legal range with its n data bytes: pixel f of the range takes the draw mode of bits 3:0 of
data byte f - Ls; the rest as for RFILL. -/
def Obligations.RsetWritesColours : Prop :=
  ∀ (s : State) (x1 y1 x2 y2 : Coord) (data : List Byte), s.planesOk → s.geomOk → s.hazard = false →
    x1.toNat < s.gw.toNat → y1.toNat < s.gh.toNat → x2.toNat < s.gw.toNat → y2.toNat < s.gh.toNat →
    flat s.gw x1 y1 ≤ flat s.gw x2 y2 → data.length = flat s.gw x2 y2 + 1 - flat s.gw x1 y1 →
    ∃ t, exec (.rset x1 y1 x2 y2 data) s = .next t ∧
      (∀ p f, t.lane p f =
        if flat s.gw x1 y1 ≤ f ∧ f ≤ flat s.gw x2 y2 then
          combineBit s.dm (s.lane p f) ((data.getD (f - flat s.gw x1 y1) 0).getLsbD p.bit)
        else s.lane p f) ∧
      (∀ p off, off < flat s.gw x1 y1 / 8 ∨ flat s.gw x2 y2 / 8 < off → t.planeByte p off = s.planeByte p off) ∧
      t = { s with planes := t.planes, trace := t.trace, phase := .idle, argc := 0, dbuf := [], dcnt := 0 }

/-- R630: RGET on a legal range: result byte i is the colour at flat index Ls + i; no plane byte changes. -/
def Obligations.RgetPushesColours : Prop :=
  ∀ (s : State) (x1 y1 x2 y2 : Coord), s.geomOk →
    x1.toNat < s.gw.toNat → y1.toNat < s.gh.toNat → x2.toNat < s.gw.toNat → y2.toNat < s.gh.toNat →
    flat s.gw x1 y1 ≤ flat s.gw x2 y2 →
    ∃ t, exec (.rget x1 y1 x2 y2) s = .next t ∧
      (∃ results : List Byte, t.rq = s.rq ++ results ∧
        results.length = flat s.gw x2 y2 + 1 - flat s.gw x1 y1 ∧
        ∀ i, i < results.length →
          (∀ p : Plane, (results.getD i 0).getLsbD p.bit = s.lane p (flat s.gw x1 y1 + i)) ∧
          ∀ j, 4 ≤ j → (results.getD i 0).getLsbD j = false) ∧
      t = { s with rq := t.rq, trace := t.trace, phase := .idle, argc := 0, dbuf := [], dcnt := 0, hazard := false }

/-- R600, R725, R720, R750: RFILL and RGET on an illegal range: bounds are checked before order; OOB or BADRANGE, no plane
access, no result; the whole next state. -/
def Obligations.IllegalRangeIsRefused : Prop :=
  ∀ (s : State) (x1 y1 x2 y2 : Coord) (e : ErrCode),
    (¬(x1.toNat < s.gw.toNat ∧ y1.toNat < s.gh.toNat ∧ x2.toNat < s.gw.toNat ∧ y2.toNat < s.gh.toNat) ∧ e = .oob) ∨
      (x1.toNat < s.gw.toNat ∧ y1.toNat < s.gh.toNat ∧ x2.toNat < s.gw.toNat ∧ y2.toNat < s.gh.toNat ∧
        flat s.gw x2 y2 < flat s.gw x1 y1 ∧ e = .badRange) →
    (∀ c, exec (.rfill c x1 y1 x2 y2) s = .next
      { s with err := true, ecode := if s.err then s.ecode else e, phase := .idle, hazard := false,
               faults := ⟨.command .rfill, .error e⟩ :: s.faults }) ∧
    exec (.rget x1 y1 x2 y2) s = .next
      { s with err := true, ecode := if s.err then s.ecode else e, phase := .idle, hazard := false,
               faults := ⟨.command .rget, .error e⟩ :: s.faults }

/-- R620, R600: RSET on an illegal range: the range error, then XDATA for each data byte the host still writes; the first
error stays latched; the whole next state. That RSET's own meaning validates (log entry 10), that it raises XDATA over its
own list of data bytes, and that with a legal range and other than n data bytes it is refused by name (log entry 12) are
the model's choices. -/
def Obligations.IllegalRsetIsRefused : Prop :=
  ∀ (s : State) (x1 y1 x2 y2 : Coord) (data : List Byte),
    (∀ e, rangeCheck s.gw s.gh x1 y1 x2 y2 = some e →
      exec (.rset x1 y1 x2 y2 data) s = .next
        { s with err := true, ecode := if s.err then s.ecode else e, phase := .idle, hazard := false,
                 faults := List.replicate data.length ⟨.wrData, .error .xdata⟩ ++
                   (⟨.command .rset, .error e⟩ :: s.faults) }) ∧
    (rangeCheck s.gw s.gh x1 y1 x2 y2 = none → data.length ≠ flat s.gw x2 y2 + 1 - flat s.gw x1 y1 →
      exec (.rset x1 y1 x2 y2 data) s = .refused .rsetDataCount)

/-- R640: the byte path and the pixel path give the same planes: the walk of a split range is PixelWrite at each flat index
of the range in ascending order, for RFILL and for RSET. -/
def Obligations.BytePathEqualsPixelPath : Prop :=
  ∀ (s : State) (ls le : Nat), (∀ p, memWf (s.planes.get p)) → s.hazard = false → ls ≤ le →
    (∀ c, (fillRange c ls le s).planes =
      ((ascending ls (le + 1)).foldl (fun t f => pixelWrite f c t) s).planes) ∧
    ∀ data, (setRange data ls le s).planes =
      ((ascending ls (le + 1)).foldl (fun t f => pixelWrite f (rangeColour data ls f) t) s).planes

/-- R641: after an RSET under Replace, RGET of the same range returns the data bytes with bits 7:4 cleared, and PGET at each
pixel of it returns that pixel's byte so. -/
def Obligations.SetRangeReadsBack : Prop :=
  ∀ (s : State) (x1 y1 x2 y2 : Coord) (data : List Byte), s.planesOk → s.geomOk → s.hazard = false →
    x1.toNat < s.gw.toNat → y1.toNat < s.gh.toNat → x2.toNat < s.gw.toNat → y2.toNat < s.gh.toNat →
    flat s.gw x1 y1 ≤ flat s.gw x2 y2 → data.length = flat s.gw x2 y2 + 1 - flat s.gw x1 y1 →
    (∃ t, issue [.setdm .replace, .rset x1 y1 x2 y2 data, .rget x1 y1 x2 y2] s = .next t ∧
      t.rq = s.rq ++ data.map (· &&& 0x0F)) ∧
    ∀ (x y : Coord) (i : Nat), x.toNat < s.gw.toNat → y.toNat < s.gh.toNat → i < data.length →
      flat s.gw x y = flat s.gw x1 y1 + i →
      ∃ t, issue [.setdm .replace, .rset x1 y1 x2 y2 data, .pget x y] s = .next t ∧
        t.rq = s.rq ++ [data.getD i 0 &&& 0x0F]

/-- R642: the whole-screen fill is the whole bytes 0 .. S*GH-1, with no head and no tail; under Replace it makes one plane
write for each plane and byte and leaves plane p at BcastC(c, p) there. -/
def Obligations.WholeScreenFillIsBytes : Prop :=
  ∀ (s : State) (c : Colour), s.planesOk → geomLegal s.cfg.planeBytes s.gw s.gh = true → s.hazard = false →
    (split 0 (s.gw.toNat * s.gh.toNat - 1)).head = [] ∧ (split 0 (s.gw.toNat * s.gh.toNat - 1)).tail = [] ∧
    (split 0 (s.gw.toNat * s.gh.toNat - 1)).interior = List.range (stride s.gw * s.gh.toNat) ∧
    (s.dm = .replace →
      ∃ t, exec (.rfill c 0 0 (s.gw - 1) (s.gh - 1)) s = .next t ∧
        (∀ p off, off < stride s.gw * s.gh.toNat → t.planeByte p off = if c.getLsbD p.bit then 0xFF else 0x00) ∧
        t.trace.length = s.trace.length + 4 * (stride s.gw * s.gh.toNat))

/-- R610, R461: under Xor two identical RFILLs restore the planes. -/
def Obligations.XorFillTwiceRestores : Prop :=
  ∀ (s t u : State) (c : Colour) (x1 y1 x2 y2 : Coord), s.planesOk → s.geomOk → s.hazard = false → s.dm = .xor →
    rangeCheck s.gw s.gh x1 y1 x2 y2 = none →
    exec (.rfill c x1 y1 x2 y2) s = .next t → exec (.rfill c x1 y1 x2 y2) t = .next u → u.planes = s.planes

/-- R821: a pixel or range write during whose collection the host wrote a plane byte still completes: the bytes of its range
may hold anything, every byte outside them stays, and no register but those of R415 and the model's own changes. -/
def Obligations.HazardousWritesStayInRange : Prop :=
  ∀ (s : State) (x1 y1 x2 y2 : Coord), s.planesOk → s.geomOk → s.hazard = true →
    x1.toNat < s.gw.toNat → y1.toNat < s.gh.toNat → x2.toNat < s.gw.toNat → y2.toNat < s.gh.toNat →
    flat s.gw x1 y1 ≤ flat s.gw x2 y2 →
    ∀ i : Instr, (∃ c, i = .pset c x1 y1 ∧ x1 = x2 ∧ y1 = y2) ∨ (∃ c, i = .rfill c x1 y1 x2 y2) ∨
        (∃ data, i = .rset x1 y1 x2 y2 data ∧ data.length = flat s.gw x2 y2 + 1 - flat s.gw x1 y1) →
      ∃ t, exec i s = .next t ∧
        (∀ p off, off < flat s.gw x1 y1 / 8 ∨ flat s.gw x2 y2 / 8 < off → t.planeByte p off = s.planeByte p off) ∧
        t = { s with planes := t.planes, trace := t.trace, freeIdx := t.freeIdx, phase := .idle, argc := 0, dbuf := []
                     dcnt := 0, hazard := false }

/-- R465, R466, R467, R468, R851: the plane accesses of the range commands: 8 for each pixel of head and tail written, 4 for
each read; for each interior byte 4 under Replace or when read, 8 otherwise. -/
def Obligations.RangeAccessCounts : Prop :=
  ∀ (s : State) (ls le : Nat), ls ≤ le →
    (∀ c, (fillRange c ls le s).trace.length = s.trace.length +
      8 * ((split ls le).head.length + (split ls le).tail.length) +
      (if s.dm = .replace then 4 else 8) * (split ls le).interior.length) ∧
    (∀ data, (setRange data ls le s).trace.length = s.trace.length +
      8 * ((split ls le).head.length + (split ls le).tail.length) +
      (if s.dm = .replace then 4 else 8) * (split ls le).interior.length) ∧
    (getRange ls le s).trace.length = s.trace.length +
      4 * ((split ls le).head.length + (split ls le).tail.length + (split ls le).interior.length)

/-- R312: bits 7:4 of RSET's data bytes have no effect on any state. -/
def Obligations.RsetIgnoresUpperBits : Prop :=
  ∀ (s : State) (x1 y1 x2 y2 : Coord) (data : List Byte),
    exec (.rset x1 y1 x2 y2 (data.map (· &&& 0x0F))) s = exec (.rset x1 y1 x2 y2 data) s

/-! ### Datapath -/

/-- R453: a pixel may be addressed by its flat index alone. -/
def Obligations.FlatAddressAgrees : Prop :=
  ∀ gw x y : Coord, gw.toNat % 8 = 0 → x.toNat < gw.toNat → bitAddr gw x y = flatAddr (flat gw x y)

/-- R480: with an accepted geometry and a pixel in bounds, the stride, the byte offset and the flat index stay in their
bounds. -/
def Obligations.AddressesStayInBounds : Prop :=
  ∀ (planeBytes : Nat) (gw gh x y : Coord), geomLegal planeBytes gw gh = true → x.toNat < gw.toNat → y.toNat < gh.toNat →
    stride gw ≤ 8191 ∧ (bitAddr gw x y).1 < stride gw * gh.toNat ∧ stride gw * gh.toNat ≤ planeBytes ∧
      flat gw x y < gw.toNat * gh.toNat ∧ gw.toNat * gh.toNat ≤ 8 * planeBytes

/-- R461: the bit law of the masked read-modify-write, and the data bits that change nothing. -/
def Obligations.MrmwActsBitwise : Prop :=
  ∀ (m : DrawMode) (o d mask : Byte) (j : Nat), j < 8 →
    (mrmw m o d mask).getLsbD j =
      (if mask.getLsbD j then combineBit m (o.getLsbD j) (d.getLsbD j) else o.getLsbD j) ∧
    ((m = .and ∧ d.getLsbD j = true) ∨ ((m = .or ∨ m = .xor) ∧ d.getLsbD j = false) →
      (mrmw m o d mask).getLsbD j = o.getLsbD j)

/-- R456, R463: Gather inverts PlaneBit, and Unpack inverts Pack in every lane. -/
def Obligations.UnpackInvertsPack : Prop :=
  (∀ c : Colour, gather (Quad.ofFn fun p => planeBit c p) = c) ∧
  ∀ (cs : Nat → Colour) (k : Nat), k < 8 → unpack (Quad.ofFn fun p => pack p cs) k = cs k

/-- R476: head, the pixels of the interior bytes and tail are exactly the range, each pixel once and in ascending order; with
the rule's four examples. -/
def Obligations.SplitPartitionsRange : Prop :=
  (∀ ls le : Nat, ls ≤ le →
    (split ls le).head ++ (split ls le).interior.flatMap (fun k => ascending (8 * k) (8 * k + 8)) ++ (split ls le).tail =
      ascending ls (le + 1)) ∧
  split 4 19 = ⟨4, 8, 1, 2, 16, 20⟩ ∧ split 0 639 = ⟨0, 0, 0, 80, 640, 640⟩ ∧
    (split 5 6).head = [5, 6] ∧ (split 5 6).interior = [] ∧ (split 5 6).tail = [] ∧
    (split 8 9).head = [] ∧ (split 8 9).interior = [] ∧ (split 8 9).tail = [8, 9]

/-- R230, R480: no command changes a byte at or above S*GH, in any plane. -/
def Obligations.CommandsStayOnScreen : Prop :=
  ∀ (s t : State) (i : Instr), s.planesOk → s.geomOk → isCommand i = true → exec i s = .next t →
    ∀ p off, stride s.gw * s.gh.toNat ≤ off → t.planeByte p off = s.planeByte p off

/-! ### Bus operations -/

/-- R121, R122, R123: the three derived bits of STATUS; and the places of ERR and ECODE (R120, R710). -/
def Obligations.StatusBitsFollowState : Prop :=
  ∀ s : State,
    (s.statusByte.getLsbD 0 = true ↔ s.phase = .exec) ∧ (s.statusByte.getLsbD 1 = true ↔ s.rq ≠ []) ∧
    (s.statusByte.getLsbD 2 = true ↔ s.phase = .collect ∨ s.phase = .data) ∧
    (s.statusByte.getLsbD 3 = s.err) ∧
    (s.statusByte.extractLsb' 4 4).toNat = (match s.ecode with
      | .none => 0 | .badSel => 1 | .busy => 2 | .abort => 3 | .xdata => 4 | .underrun => 5 | .badGeom => 6 | .oob => 7
      | .badRange => 8)

/-- R401: RD_STATUS returns the STATUS byte and changes no engine state; the whole next state. -/
def Obligations.RdStatusReturnsStatus : Prop :=
  ∀ s : State, exec .rdStatus s = .next
    { s with replies := s.statusByte :: s.replies, pollDue := s.pollDue && decide (s.phase = .exec) }

/-- R402: WR_CMD in every phase, with a legal and with a reserved selector: the whole next state, where no poll is due (the
clause with one due is LateWriteIsRecorded). -/
def Obligations.WrCmdBeginsCommand : Prop :=
  ∀ (s : State) (b : Byte),
    (s.phase = .exec → exec (.wrCmd b) s = .next
      { s with err := true, ecode := if s.err then s.ecode else .busy, faults := ⟨.wrCmd, .error .busy⟩ :: s.faults }) ∧
    (s.phase = .idle → s.pollDue = false →
      (∀ k, kindOf s.cfg.rgetSupported b = some k → exec (.wrCmd b) s = .next
        { s with rq := [], argc := 0, dbuf := [], dcnt := 0, hazard := false, sel := b
                 phase := if argCount k = 0 then .exec else .collect, pollDue := decide (argCount k = 0) }) ∧
      (kindOf s.cfg.rgetSupported b = none → exec (.wrCmd b) s = .next
        { s with rq := [], argc := 0, dbuf := [], dcnt := 0, hazard := false, phase := .idle, err := true
                 ecode := if s.err then s.ecode else .badSel, faults := ⟨.wrCmd, .error .badSel⟩ :: s.faults })) ∧
    (s.phase = .collect ∨ s.phase = .data → s.pollDue = false →
      (∀ k, kindOf s.cfg.rgetSupported b = some k → exec (.wrCmd b) s = .next
        { s with rq := [], argc := 0, dbuf := [], dcnt := 0, hazard := false, sel := b
                 phase := if argCount k = 0 then .exec else .collect, pollDue := decide (argCount k = 0), err := true
                 ecode := if s.err then s.ecode else .abort, faults := ⟨.wrCmd, .error .abort⟩ :: s.faults }) ∧
      (kindOf s.cfg.rgetSupported b = none → exec (.wrCmd b) s = .next
        { s with rq := [], argc := 0, dbuf := [], dcnt := 0, hazard := false, phase := .idle, err := true
                 ecode := if s.err then s.ecode else .abort
                 faults := ⟨.wrCmd, .error .badSel⟩ :: ⟨.wrCmd, .error .abort⟩ :: s.faults }))

/-- R403, R410: WR_DATA in every phase: BUSY in Exec, XDATA in Idle, an argument byte stored in Collect, and after the last
one the validation's error, RSET's data phase or Exec; a data byte stored in Data, and Exec after the n-th; the whole next
state, where no poll is due. That a failed validation leaves a poll due (R820) is DEDUCED (log entry 9). -/
def Obligations.WrDataFeedsCommand : Prop :=
  ∀ (s : State) (b : Byte),
    (s.phase = .exec → exec (.wrData b) s = .next
      { s with err := true, ecode := if s.err then s.ecode else .busy, faults := ⟨.wrData, .error .busy⟩ :: s.faults }) ∧
    (s.phase = .idle → s.pollDue = false → exec (.wrData b) s = .next
      { s with err := true, ecode := if s.err then s.ecode else .xdata, faults := ⟨.wrData, .error .xdata⟩ :: s.faults }) ∧
    (s.phase = .collect → s.pollDue = false → ∀ k (h : s.argc < 8) (u : State),
      kindOf s.cfg.rgetSupported s.sel = some k → u = { s with arg := s.arg.set s.argc b, argc := s.argc + 1 } →
      (s.argc + 1 ≠ argCount k → exec (.wrData b) s = .next u) ∧
      (s.argc + 1 = argCount k →
        (∀ e, validate k u = some e → exec (.wrData b) s = .next
          { u with err := true, ecode := if s.err then s.ecode else e, phase := .idle, hazard := false, pollDue := true,
                   faults := ⟨.command k, .error e⟩ :: s.faults }) ∧
        (validate k u = none → k = .rset → exec (.wrData b) s = .next { u with phase := .data }) ∧
        (validate k u = none → k ≠ .rset → exec (.wrData b) s = .next { u with phase := .exec, pollDue := true }))) ∧
    (s.phase = .data → s.pollDue = false → ∀ u : State, u = { s with dbuf := s.dbuf ++ [b], dcnt := s.dcnt + 1 } →
      (s.dcnt + 1 ≠ s.dataCount → exec (.wrData b) s = .next u) ∧
      (s.dcnt + 1 = s.dataCount → exec (.wrData b) s = .next { u with phase := .exec, pollDue := true }))

/-- R411, R530, R550, R600, R725: what Validate answers for each kind of command, on the operands LE16 assembles from the
argument registers (R130). -/
def Obligations.ValidateChecksOperands : Prop :=
  ∀ (s : State) (x1 y1 x2 y2 : Coord), x1 = s.operand 0 → y1 = s.operand 1 → x2 = s.operand 2 → y2 = s.operand 3 →
    validate .clrerr s = none ∧ validate .getcfg s = none ∧ validate .setdm s = none ∧
    validate .setgeom s =
      (if x1.toNat % 8 = 0 ∧ 8 ≤ x1.toNat ∧ 1 ≤ y1.toNat ∧ x1.toNat / 8 * y1.toNat ≤ s.cfg.planeBytes then none
       else some .badGeom) ∧
    (∀ k, k = .pset ∨ k = .pget →
      validate k s = if x1.toNat < s.gw.toNat ∧ y1.toNat < s.gh.toNat then none else some .oob) ∧
    ∀ k, k = .rfill ∨ k = .rset ∨ k = .rget →
      validate k s =
        if x1.toNat < s.gw.toNat ∧ y1.toNat < s.gh.toNat ∧ x2.toNat < s.gw.toNat ∧ y2.toNat < s.gh.toNat then
          if y1.toNat * s.gw.toNat + x1.toNat ≤ y2.toNat * s.gw.toNat + x2.toNat then none else some .badRange
        else some .oob

/-- R820, R750: a CMD or DATA write with a poll still due and the command done by then is recorded as a fault, once, and then
does what it does with no poll due. That the fault is recorded even though nothing is dropped is DEDUCED (log entry 9). -/
def Obligations.LateWriteIsRecorded : Prop :=
  ∀ (s : State) (b : Byte), s.phase ≠ .exec → s.pollDue = true →
    exec (.wrCmd b) s = exec (.wrCmd b) { s with pollDue := false, faults := ⟨.wrCmd, .unpolled⟩ :: s.faults } ∧
    exec (.wrData b) s = exec (.wrData b) { s with pollDue := false, faults := ⟨.wrData, .unpolled⟩ :: s.faults }

/-- R820, R750: after the last byte of any well-formed command, whether its validation passed or failed, the next CMD or
DATA write with no STATUS read between is recorded as a fault: as the error BUSY in Exec, else as an unpolled write, beside
whatever that write records itself. That a poll is due after a failed validation too, and that an unpolled write outside
Exec is recorded, is DEDUCED (log entry 9). -/
def Obligations.PollIsDueAfterLastByte : Prop :=
  ∀ (s : State) (i : Instr), s.phase = .idle → isCommand i = true → i.wf s.cfg s.gw s.gh = true →
    ∃ u, issue (transfers s.cfg i) s = .next u ∧ u.pollDue = true ∧
      ∀ b, ∃ v w, exec (.wrCmd b) u = .next v ∧ exec (.wrData b) u = .next w ∧
        (u.phase = .exec → v.faults = ⟨.wrCmd, .error .busy⟩ :: u.faults ∧
          w.faults = ⟨.wrData, .error .busy⟩ :: u.faults) ∧
        (u.phase ≠ .exec →
          v.faults = (if kindOf u.cfg.rgetSupported b = none then [⟨.wrCmd, .error .badSel⟩] else []) ++
            ⟨.wrCmd, .unpolled⟩ :: u.faults ∧
          w.faults = ⟨.wrData, .error .xdata⟩ :: ⟨.wrData, .unpolled⟩ :: u.faults)

/-- R404: RD_DATA pops the head of RQ, or raises UNDERRUN and returns 0x00; the whole next state. -/
def Obligations.RdDataPopsOrUnderruns : Prop :=
  ∀ s : State,
    (∀ b rest, s.rq = b :: rest → exec .rdData s = .next { s with rq := rest, replies := b :: s.replies }) ∧
    (s.rq = [] → exec .rdData s = .next
      { s with err := true, ecode := if s.err then s.ecode else .underrun, replies := 0x00 :: s.replies
               faults := ⟨.rdData, .error .underrun⟩ :: s.faults })

/-- R405, R821: HP_RD in Idle returns the plane byte; in any other phase it returns some byte and a fault is recorded; the
whole next state. -/
def Obligations.HpRdReturnsByte : Prop :=
  ∀ (s : State) (p : Plane) (off : Nat), s.cfg.hostPlanePort = true → off < s.cfg.planeBytes →
    (s.phase = .idle → exec (.hpRd p off) s = .next { s with replies := s.planeByte p off :: s.replies }) ∧
    (s.phase ≠ .idle → ∃ v : Byte, exec (.hpRd p off) s = .next
      { s with replies := v :: s.replies, freeIdx := s.freeIdx + 1, faults := ⟨.hpRd, .planeHazard⟩ :: s.faults })

/-- R406, R101, R821: HP_WR in Idle stores the byte as given, whatever DM; in any other phase some byte lands there, the
command in progress is marked and a fault is recorded; either way every other byte of every plane stays, and the rest of
the state is given. Outside Idle the effect is undefined (R821): that at this step every other byte stays, those the command
will write among them, and that the field hazard marks the command, whose own writes are then free values, is the model's
choice (log entry 8). -/
def Obligations.HpWrStoresByte : Prop :=
  ∀ (s : State) (p : Plane) (off : Nat) (v : Byte), s.planesOk → s.cfg.hostPlanePort = true → off < s.cfg.planeBytes →
    (s.phase = .idle → ∃ t, exec (.hpWr p off v) s = .next t ∧ t.planeByte p off = v ∧
      (∀ r x, ¬(r = p ∧ x = off) → t.planeByte r x = s.planeByte r x) ∧ t = { s with planes := t.planes }) ∧
    (s.phase ≠ .idle → ∃ t, exec (.hpWr p off v) s = .next t ∧
      (∀ r x, ¬(r = p ∧ x = off) → t.planeByte r x = s.planeByte r x) ∧
      t = { s with planes := t.planes, hazard := true, freeIdx := s.freeIdx + 1,
                   faults := ⟨.hpWr, .planeHazard⟩ :: s.faults })

/-- R405, R406: without HOST_PLANE_PORT the host plane accesses do not exist and are refused by name (93 I17); an offset
that names no byte faults by name. -/
def Obligations.HostPlanePortStops : Prop :=
  ∀ (s : State) (p : Plane) (off : Nat) (v : Byte),
    (s.cfg.hostPlanePort = false →
      exec (.hpRd p off) s = .refused .noHostPlanePort ∧ exec (.hpWr p off v) s = .refused .noHostPlanePort) ∧
    (s.cfg.hostPlanePort = true → s.cfg.planeBytes ≤ off →
      exec (.hpRd p off) s = .fault .planeOffset ∧ exec (.hpWr p off v) s = .fault .planeOffset)

/-! ### Errors -/

/-- R720, R721: the error action: ECODE latches the first code, ERR is set, nothing else of the engine changes, and a second
error changes neither. -/
def Obligations.FirstErrorIsLatched : Prop :=
  ∀ (s : State) (op : Op) (c d : ErrCode),
    (raiseError op c s).toEngine =
      { s.toEngine with err := true, ecode := if s.err then s.ecode else c } ∧
    (raiseError op d (raiseError op c s)).toEngine = (raiseError op c s).toEngine

/-- R723: an error does not block the engine: but for ERR and ECODE, every instruction does the same whatever they hold;
RD_STATUS apart, whose reply is the STATUS byte itself. -/
def Obligations.ErrorBlocksNothing : Prop :=
  ∀ (i : Instr) (s : State) (e : Bool) (c : ErrCode), i ≠ .rdStatus →
    viewOutcome (fun t => t.setStatus false .none) (exec i (s.setStatus e c)) =
      viewOutcome (fun t => t.setStatus false .none) (exec i s)

/-- R722, R721: a latched error survives every instruction but CLRERR, code and all. -/
def Obligations.OnlyClrerrClearsErrors : Prop :=
  ∀ (i : Instr) (s t : State), s.err = true → i ≠ .clrerr → exec i s = .next t → t.err = true ∧ t.ecode = s.ecode

/-! ### Who changes what -/

/-- R103: only PSET, RFILL, RSET and HP_WR change a plane byte; the other instructions and reset never do. -/
def Obligations.OnlyWritersChangePlanes : Prop :=
  (∀ (i : Instr) (s t : State), exec i s = .next t →
    (∀ c x y, i ≠ .pset c x y) → (∀ c x1 y1 x2 y2, i ≠ .rfill c x1 y1 x2 y2) →
    (∀ x1 y1 x2 y2 d, i ≠ .rset x1 y1 x2 y2 d) → (∀ p off v, i ≠ .hpWr p off v) → t.planes = s.planes) ∧
  ∀ s : State, (assertReset s).planes = s.planes

/-- R112, R119: only SETDM writes DM and only SETGEOM writes GW and GH, among all instructions; no instruction changes the
parameters, the host's events or the turns. -/
def Obligations.ControlRegisterWriters : Prop :=
  ∀ (i : Instr) (s t : State), exec i s = .next t →
    ((∀ m, i ≠ .setdm m) → t.dm = s.dm) ∧ ((∀ w h, i ≠ .setgeom w h) → t.gw = s.gw ∧ t.gh = s.gh) ∧
    t.cfg = s.cfg ∧ t.bus = s.bus ∧ t.sched = s.sched

/-- R131: in Idle, SEL and ARG are unobservable: whatever they hold, every bus operation does the same but for SEL and ARG
themselves. -/
def Obligations.IdleSelAndArgUnobservable : Prop :=
  ∀ (i : Instr) (s : State) (b : Byte) (a : Vector Byte 8), s.phase = .idle → isCommand i = false →
    viewOutcome (fun t => (t.setSel 0).setArgs (Vector.replicate 8 0) t.argc) (exec i ((s.setSel b).setArgs a s.argc)) =
      viewOutcome (fun t => (t.setSel 0).setArgs (Vector.replicate 8 0) t.argc) (exec i s)

/-! ### The whole machine -/

/-- R118, R125, R131, R135, R140: every step keeps the invariant: the planes canonical and inside PLANE_BYTES, GW and GH a
pair that SETGEOM accepts or (0, 0), ECODE NONE exactly while ERR is 0, the sequencer's registers as the phase says, RQ
within its bound. -/
def Obligations.StepKeepsInvariant : Prop :=
  ∀ s t : State, s.Inv → step s = .next t → t.Inv

/-- R480, R140: no step from a state that meets the invariant faults: every plane access names an existing byte, and a
pending command always decodes; a step stops only on a bus cycle that is not the engine's or a host plane access where the
port does not exist. -/
def Obligations.StepNeverFaults : Prop :=
  ∀ s : State, s.Inv →
    (∃ t, step s = .next t) ∨ (∃ why, step s = .refused (.notEngine why)) ∨
      (step s = .refused .noHostPlanePort ∧ s.cfg.hostPlanePort = false)

/-- R360, R361: CLEAR is the whole-screen RFILL and WAITRDY; RECT is one RFILL and WAITRDY for each row from y1 to y2 and
nothing when y1 > y2. -/
def Obligations.PseudoInstructionsExpand : Prop :=
  ∀ (cfg : Config) (gw gh : Coord) (c : Colour) (x1 y1 x2 y2 : Coord),
    assemble cfg gw gh (.clear c) =
      assemble cfg gw gh (.instr (.rfill c 0 0 (gw - 1) (gh - 1))) ++ [.waitRdy] ∧
    (y2.toNat < y1.toNat → assemble cfg gw gh (.rect c x1 y1 x2 y2) = []) ∧
    (y1.toNat ≤ y2.toNat → y1 ≠ y2 →
      assemble cfg gw gh (.rect c x1 y1 x2 y2) =
        assemble cfg gw gh (.instr (.rfill c x1 y1 x2 y1)) ++ [.waitRdy] ++
          assemble cfg gw gh (.rect c x1 (y1 + 1) x2 y2)) ∧
    assemble cfg gw gh (.rect c x1 y1 x2 y1) = assemble cfg gw gh (.instr (.rfill c x1 y1 x2 y1)) ++ [.waitRdy]
end

