-- ==== Sys2Proof/Laws/Memory.lean ====
section
/-!
SUPPORT. The laws of a plane's memory: a write keeps the canonical form, a read after a write, extensionality of canonical
memories; and the laws of the four values of a Quad.
-/

namespace Sys2Proof

@[simp] theorem Quad.get_set_self {α : Type} (q : Quad α) (p : Plane) (v : α) : (q.set p v).get p = v := by
  cases p <;> rfl

theorem Quad.get_set_ne {α : Type} (q : Quad α) {p r : Plane} (v : α) (h : r ≠ p) : (q.set p v).get r = q.get r := by
  cases p <;> cases r <;> first | rfl | exact absurd rfl h

theorem Quad.get_set {α : Type} (q : Quad α) (p r : Plane) (v : α) :
    (q.set p v).get r = if r = p then v else q.get r := by
  cases p <;> cases r <;> rfl

@[simp] theorem Quad.get_ofFn {α : Type} (f : Plane → α) (p : Plane) : (Quad.ofFn f).get p = f p := by
  cases p <;> rfl

theorem Quad.ext_get {α : Type} {q r : Quad α} (h : ∀ p, q.get p = r.get p) : q = r := by
  have h1 := h .p1
  have h2 := h .p2
  have h3 := h .p3
  have h4 := h .p4
  cases q
  cases r
  simp_all [Quad.get]

@[simp] theorem Plane.mem_all (p : Plane) : p ∈ Plane.all := by cases p <;> decide

namespace Machine

/-- Every entry of a written memory is the new one or was there before. -/
theorem mem_memWrite {m : PlaneMem} {a : Nat} {v : Byte} {c : Host.Cell} (h : c ∈ memWrite m a v) :
    (c = (a, v) ∧ v ≠ blankByte) ∨ c ∈ m := by
  induction m with
  | nil =>
    simp only [memWrite] at h
    split at h <;> simp_all
  | cons d m ih =>
    obtain ⟨b, w⟩ := d
    simp only [memWrite] at h
    split at h
    · split at h
      · exact Or.inr h
      · rcases List.mem_cons.mp h with h | h
        · exact Or.inl ⟨h, by assumption⟩
        · exact Or.inr h
    · split at h
      · split at h
        · exact Or.inr (List.mem_cons_of_mem _ h)
        · rcases List.mem_cons.mp h with h | h
          · exact Or.inl ⟨h, by assumption⟩
          · exact Or.inr (List.mem_cons_of_mem _ h)
      · rcases List.mem_cons.mp h with h | h
        · exact Or.inr (h ▸ List.mem_cons_self)
        · rcases ih h with h | h
          · exact Or.inl h
          · exact Or.inr (List.mem_cons_of_mem _ h)

/-- The canonical form of a list with a first entry. -/
theorem memWf_cons {b : Nat} {w : Byte} {m : PlaneMem} :
    memWf ((b, w) :: m) ↔ (∀ c ∈ m, b < c.1) ∧ w ≠ blankByte ∧ memWf m := by
  simp only [memWf, List.map_cons, List.pairwise_cons, List.mem_map, forall_exists_index, and_imp,
    forall_apply_eq_imp_iff₂, List.mem_cons, forall_eq_or_imp]
  tauto

/-- Writing a byte keeps the canonical form. -/
theorem memWf_memWrite {m : PlaneMem} (a : Nat) (v : Byte) (h : memWf m) : memWf (memWrite m a v) := by
  induction m with
  | nil =>
    simp only [memWrite]
    split
    · exact h
    · exact memWf_cons.mpr ⟨by simp, by assumption, h⟩
  | cons d m ih =>
    obtain ⟨b, w⟩ := d
    obtain ⟨hb, hw, hm⟩ := memWf_cons.mp h
    simp only [memWrite]
    split
    · rename_i hab
      split
      · exact h
      · refine memWf_cons.mpr ⟨fun c hc => ?_, by assumption, h⟩
        rcases List.mem_cons.mp hc with rfl | hc
        · exact hab
        · exact hab.trans (hb c hc)
    · split
      · rename_i hab
        split
        · exact hm
        · exact memWf_cons.mpr ⟨fun c hc => hab ▸ hb c hc, by assumption, hm⟩
      · refine memWf_cons.mpr ⟨fun c hc => ?_, hw, ih hm⟩
        rcases mem_memWrite hc with ⟨rfl, -⟩ | hc
        · simp only; omega
        · exact hb c hc

/-- An offset below every listed one reads as blank. -/
theorem memRead_of_lt {m : PlaneMem} {a : Nat} (h : ∀ c ∈ m, a < c.1) : memRead m a = blankByte := by
  induction m with
  | nil => rfl
  | cons d m ih =>
    obtain ⟨b, w⟩ := d
    have hb : a < b := h (b, w) List.mem_cons_self
    simp only [memRead, if_neg (Nat.ne_of_lt hb)]
    exact ih fun c hc => h c (List.mem_cons_of_mem _ hc)

/-- A read after a write: the byte written at its offset, every other offset as before. -/
theorem memRead_memWrite {m : PlaneMem} (h : memWf m) (a : Nat) (v : Byte) (b : Nat) :
    memRead (memWrite m a v) b = if b = a then v else memRead m b := by
  induction m with
  | nil =>
    by_cases hv : v = blankByte <;> by_cases hb : b = a <;> simp [memWrite, memRead, hv, hb]
  | cons d m ih =>
    obtain ⟨c, w⟩ := d
    obtain ⟨hc, hw, hm⟩ := memWf_cons.mp h
    have low : ∀ x, x ≤ c → memRead m x = blankByte := fun x hx =>
      memRead_of_lt fun e he => Nat.lt_of_le_of_lt hx (hc e he)
    simp only [memWrite]
    by_cases hac : a < c
    · simp only [hac, if_true]
      by_cases hv : v = blankByte
      · by_cases hb : b = a
        · have hbc : b ≠ c := by omega
          simp [memRead, hv, hb, low a (by omega), show a ≠ c by omega]
        · simp [hv, hb]
      · by_cases hb : b = a <;> simp [hv, memRead, hb]
    · by_cases hac' : a = c
      · subst hac'
        by_cases hv : v = blankByte
        · by_cases hb : b = a
          · simp [hv, hb, low a (le_refl a)]
          · simp [hv, memRead, hb]
        · by_cases hb : b = a <;> simp [hv, memRead, hb]
      · by_cases hb : b = c
        · have hba : b ≠ a := by omega
          simp [hac, hac', memRead, hb, show c ≠ a by omega]
        · simp [hac, hac', memRead, hb, ih hm]

/-- A canonical memory's listed byte is the one read there. -/
theorem memRead_of_mem {m : PlaneMem} (h : memWf m) {c : Host.Cell} (hc : c ∈ m) : memRead m c.1 = c.2 := by
  induction m with
  | nil => cases hc
  | cons d m ih =>
    obtain ⟨b, w⟩ := d
    obtain ⟨hb, -, hm⟩ := memWf_cons.mp h
    rcases List.mem_cons.mp hc with rfl | hc
    · simp [memRead]
    · have : c.1 ≠ b := Nat.ne_of_gt (hb c hc)
      simp [memRead, this, ih hm hc]

/-- Canonical memories that read alike are equal lists. -/
theorem memWf_ext {m n : PlaneMem} (hm : memWf m) (hn : memWf n) (h : ∀ a, memRead m a = memRead n a) : m = n := by
  induction m generalizing n with
  | nil =>
    cases n with
    | nil => rfl
    | cons d n =>
      have h1 := h d.1
      rw [memRead_of_mem hn List.mem_cons_self] at h1
      exact absurd h1.symm (memWf_cons.mp hn).2.1
  | cons d m ih =>
    obtain ⟨b, w⟩ := d
    obtain ⟨hb, hw, hm'⟩ := memWf_cons.mp hm
    cases n with
    | nil =>
      have h1 := h b
      simp only [memRead, if_true] at h1
      exact absurd h1 hw
    | cons e n =>
      obtain ⟨c, x⟩ := e
      obtain ⟨hc, hx, hn'⟩ := memWf_cons.mp hn
      have hbc : b = c := by
        rcases Nat.lt_trichotomy b c with hlt | heq | hgt
        · have h1 := h b
          rw [memRead_of_lt (m := (c, x) :: n) (a := b) (by
            intro y hy
            rcases List.mem_cons.mp hy with rfl | hy
            · exact hlt
            · exact hlt.trans (hc y hy))] at h1
          simp only [memRead, if_true] at h1
          exact absurd h1 hw
        · exact heq
        · have h1 := h c
          rw [memRead_of_lt (m := (b, w) :: m) (a := c) (by
            intro y hy
            rcases List.mem_cons.mp hy with rfl | hy
            · exact hgt
            · exact hgt.trans (hb y hy))] at h1
          simp only [memRead, if_true] at h1
          exact absurd h1.symm hx
      subst hbc
      have hwx : w = x := by simpa [memRead] using h b
      subst hwx
      congr 1
      refine ih hm' hn' fun a => ?_
      by_cases ha : a = b
      · subst ha
        rw [memRead_of_lt hb, memRead_of_lt hc]
      · simpa [memRead, ha] using h a

end Machine
end Sys2Proof
end

