-- ==== Sys2Proof/Laws/State.lean ====
section
/-!
SUPPORT. One lemma for each field of State under each named update, true by rfl and a simp lemma, so that no proof unfolds
a record update; and one for the whole engine part under each update of the model's own fields.
-/

namespace Sys2Proof.Machine

variable (s : State)

@[simp] theorem State.setPlanes_planes (v : Quad PlaneMem) : (s.setPlanes v).planes = v := rfl
@[simp] theorem State.setPlanes_dm (v : Quad PlaneMem) : (s.setPlanes v).dm = s.dm := rfl
@[simp] theorem State.setPlanes_gw (v : Quad PlaneMem) : (s.setPlanes v).gw = s.gw := rfl
@[simp] theorem State.setPlanes_gh (v : Quad PlaneMem) : (s.setPlanes v).gh = s.gh := rfl
@[simp] theorem State.setPlanes_err (v : Quad PlaneMem) : (s.setPlanes v).err = s.err := rfl
@[simp] theorem State.setPlanes_ecode (v : Quad PlaneMem) : (s.setPlanes v).ecode = s.ecode := rfl
@[simp] theorem State.setPlanes_phase (v : Quad PlaneMem) : (s.setPlanes v).phase = s.phase := rfl
@[simp] theorem State.setPlanes_sel (v : Quad PlaneMem) : (s.setPlanes v).sel = s.sel := rfl
@[simp] theorem State.setPlanes_arg (v : Quad PlaneMem) : (s.setPlanes v).arg = s.arg := rfl
@[simp] theorem State.setPlanes_argc (v : Quad PlaneMem) : (s.setPlanes v).argc = s.argc := rfl
@[simp] theorem State.setPlanes_dbuf (v : Quad PlaneMem) : (s.setPlanes v).dbuf = s.dbuf := rfl
@[simp] theorem State.setPlanes_dcnt (v : Quad PlaneMem) : (s.setPlanes v).dcnt = s.dcnt := rfl
@[simp] theorem State.setPlanes_rq (v : Quad PlaneMem) : (s.setPlanes v).rq = s.rq := rfl
@[simp] theorem State.setPlanes_cfg (v : Quad PlaneMem) : (s.setPlanes v).cfg = s.cfg := rfl
@[simp] theorem State.setPlanes_bus (v : Quad PlaneMem) : (s.setPlanes v).bus = s.bus := rfl
@[simp] theorem State.setPlanes_sched (v : Quad PlaneMem) : (s.setPlanes v).sched = s.sched := rfl
@[simp] theorem State.setPlanes_replies (v : Quad PlaneMem) : (s.setPlanes v).replies = s.replies := rfl
@[simp] theorem State.setPlanes_faults (v : Quad PlaneMem) : (s.setPlanes v).faults = s.faults := rfl
@[simp] theorem State.setPlanes_trace (v : Quad PlaneMem) : (s.setPlanes v).trace = s.trace := rfl
@[simp] theorem State.setPlanes_freeIdx (v : Quad PlaneMem) : (s.setPlanes v).freeIdx = s.freeIdx := rfl
@[simp] theorem State.setPlanes_hazard (v : Quad PlaneMem) : (s.setPlanes v).hazard = s.hazard := rfl
@[simp] theorem State.setPlanes_pollDue (v : Quad PlaneMem) : (s.setPlanes v).pollDue = s.pollDue := rfl

@[simp] theorem State.setDm_planes (v : DrawMode) : (s.setDm v).planes = s.planes := rfl
@[simp] theorem State.setDm_dm (v : DrawMode) : (s.setDm v).dm = v := rfl
@[simp] theorem State.setDm_gw (v : DrawMode) : (s.setDm v).gw = s.gw := rfl
@[simp] theorem State.setDm_gh (v : DrawMode) : (s.setDm v).gh = s.gh := rfl
@[simp] theorem State.setDm_err (v : DrawMode) : (s.setDm v).err = s.err := rfl
@[simp] theorem State.setDm_ecode (v : DrawMode) : (s.setDm v).ecode = s.ecode := rfl
@[simp] theorem State.setDm_phase (v : DrawMode) : (s.setDm v).phase = s.phase := rfl
@[simp] theorem State.setDm_sel (v : DrawMode) : (s.setDm v).sel = s.sel := rfl
@[simp] theorem State.setDm_arg (v : DrawMode) : (s.setDm v).arg = s.arg := rfl
@[simp] theorem State.setDm_argc (v : DrawMode) : (s.setDm v).argc = s.argc := rfl
@[simp] theorem State.setDm_dbuf (v : DrawMode) : (s.setDm v).dbuf = s.dbuf := rfl
@[simp] theorem State.setDm_dcnt (v : DrawMode) : (s.setDm v).dcnt = s.dcnt := rfl
@[simp] theorem State.setDm_rq (v : DrawMode) : (s.setDm v).rq = s.rq := rfl
@[simp] theorem State.setDm_cfg (v : DrawMode) : (s.setDm v).cfg = s.cfg := rfl
@[simp] theorem State.setDm_bus (v : DrawMode) : (s.setDm v).bus = s.bus := rfl
@[simp] theorem State.setDm_sched (v : DrawMode) : (s.setDm v).sched = s.sched := rfl
@[simp] theorem State.setDm_replies (v : DrawMode) : (s.setDm v).replies = s.replies := rfl
@[simp] theorem State.setDm_faults (v : DrawMode) : (s.setDm v).faults = s.faults := rfl
@[simp] theorem State.setDm_trace (v : DrawMode) : (s.setDm v).trace = s.trace := rfl
@[simp] theorem State.setDm_freeIdx (v : DrawMode) : (s.setDm v).freeIdx = s.freeIdx := rfl
@[simp] theorem State.setDm_hazard (v : DrawMode) : (s.setDm v).hazard = s.hazard := rfl
@[simp] theorem State.setDm_pollDue (v : DrawMode) : (s.setDm v).pollDue = s.pollDue := rfl

@[simp] theorem State.setGeom_planes (w h : Coord) : (s.setGeom w h).planes = s.planes := rfl
@[simp] theorem State.setGeom_dm (w h : Coord) : (s.setGeom w h).dm = s.dm := rfl
@[simp] theorem State.setGeom_gw (w h : Coord) : (s.setGeom w h).gw = w := rfl
@[simp] theorem State.setGeom_gh (w h : Coord) : (s.setGeom w h).gh = h := rfl
@[simp] theorem State.setGeom_err (w h : Coord) : (s.setGeom w h).err = s.err := rfl
@[simp] theorem State.setGeom_ecode (w h : Coord) : (s.setGeom w h).ecode = s.ecode := rfl
@[simp] theorem State.setGeom_phase (w h : Coord) : (s.setGeom w h).phase = s.phase := rfl
@[simp] theorem State.setGeom_sel (w h : Coord) : (s.setGeom w h).sel = s.sel := rfl
@[simp] theorem State.setGeom_arg (w h : Coord) : (s.setGeom w h).arg = s.arg := rfl
@[simp] theorem State.setGeom_argc (w h : Coord) : (s.setGeom w h).argc = s.argc := rfl
@[simp] theorem State.setGeom_dbuf (w h : Coord) : (s.setGeom w h).dbuf = s.dbuf := rfl
@[simp] theorem State.setGeom_dcnt (w h : Coord) : (s.setGeom w h).dcnt = s.dcnt := rfl
@[simp] theorem State.setGeom_rq (w h : Coord) : (s.setGeom w h).rq = s.rq := rfl
@[simp] theorem State.setGeom_cfg (w h : Coord) : (s.setGeom w h).cfg = s.cfg := rfl
@[simp] theorem State.setGeom_bus (w h : Coord) : (s.setGeom w h).bus = s.bus := rfl
@[simp] theorem State.setGeom_sched (w h : Coord) : (s.setGeom w h).sched = s.sched := rfl
@[simp] theorem State.setGeom_replies (w h : Coord) : (s.setGeom w h).replies = s.replies := rfl
@[simp] theorem State.setGeom_faults (w h : Coord) : (s.setGeom w h).faults = s.faults := rfl
@[simp] theorem State.setGeom_trace (w h : Coord) : (s.setGeom w h).trace = s.trace := rfl
@[simp] theorem State.setGeom_freeIdx (w h : Coord) : (s.setGeom w h).freeIdx = s.freeIdx := rfl
@[simp] theorem State.setGeom_hazard (w h : Coord) : (s.setGeom w h).hazard = s.hazard := rfl
@[simp] theorem State.setGeom_pollDue (w h : Coord) : (s.setGeom w h).pollDue = s.pollDue := rfl

@[simp] theorem State.setStatus_planes (e : Bool) (c : ErrCode) : (s.setStatus e c).planes = s.planes := rfl
@[simp] theorem State.setStatus_dm (e : Bool) (c : ErrCode) : (s.setStatus e c).dm = s.dm := rfl
@[simp] theorem State.setStatus_gw (e : Bool) (c : ErrCode) : (s.setStatus e c).gw = s.gw := rfl
@[simp] theorem State.setStatus_gh (e : Bool) (c : ErrCode) : (s.setStatus e c).gh = s.gh := rfl
@[simp] theorem State.setStatus_err (e : Bool) (c : ErrCode) : (s.setStatus e c).err = e := rfl
@[simp] theorem State.setStatus_ecode (e : Bool) (c : ErrCode) : (s.setStatus e c).ecode = c := rfl
@[simp] theorem State.setStatus_phase (e : Bool) (c : ErrCode) : (s.setStatus e c).phase = s.phase := rfl
@[simp] theorem State.setStatus_sel (e : Bool) (c : ErrCode) : (s.setStatus e c).sel = s.sel := rfl
@[simp] theorem State.setStatus_arg (e : Bool) (c : ErrCode) : (s.setStatus e c).arg = s.arg := rfl
@[simp] theorem State.setStatus_argc (e : Bool) (c : ErrCode) : (s.setStatus e c).argc = s.argc := rfl
@[simp] theorem State.setStatus_dbuf (e : Bool) (c : ErrCode) : (s.setStatus e c).dbuf = s.dbuf := rfl
@[simp] theorem State.setStatus_dcnt (e : Bool) (c : ErrCode) : (s.setStatus e c).dcnt = s.dcnt := rfl
@[simp] theorem State.setStatus_rq (e : Bool) (c : ErrCode) : (s.setStatus e c).rq = s.rq := rfl
@[simp] theorem State.setStatus_cfg (e : Bool) (c : ErrCode) : (s.setStatus e c).cfg = s.cfg := rfl
@[simp] theorem State.setStatus_bus (e : Bool) (c : ErrCode) : (s.setStatus e c).bus = s.bus := rfl
@[simp] theorem State.setStatus_sched (e : Bool) (c : ErrCode) : (s.setStatus e c).sched = s.sched := rfl
@[simp] theorem State.setStatus_replies (e : Bool) (c : ErrCode) : (s.setStatus e c).replies = s.replies := rfl
@[simp] theorem State.setStatus_faults (e : Bool) (c : ErrCode) : (s.setStatus e c).faults = s.faults := rfl
@[simp] theorem State.setStatus_trace (e : Bool) (c : ErrCode) : (s.setStatus e c).trace = s.trace := rfl
@[simp] theorem State.setStatus_freeIdx (e : Bool) (c : ErrCode) : (s.setStatus e c).freeIdx = s.freeIdx := rfl
@[simp] theorem State.setStatus_hazard (e : Bool) (c : ErrCode) : (s.setStatus e c).hazard = s.hazard := rfl
@[simp] theorem State.setStatus_pollDue (e : Bool) (c : ErrCode) : (s.setStatus e c).pollDue = s.pollDue := rfl

@[simp] theorem State.setPhase_planes (v : Phase) : (s.setPhase v).planes = s.planes := rfl
@[simp] theorem State.setPhase_dm (v : Phase) : (s.setPhase v).dm = s.dm := rfl
@[simp] theorem State.setPhase_gw (v : Phase) : (s.setPhase v).gw = s.gw := rfl
@[simp] theorem State.setPhase_gh (v : Phase) : (s.setPhase v).gh = s.gh := rfl
@[simp] theorem State.setPhase_err (v : Phase) : (s.setPhase v).err = s.err := rfl
@[simp] theorem State.setPhase_ecode (v : Phase) : (s.setPhase v).ecode = s.ecode := rfl
@[simp] theorem State.setPhase_phase (v : Phase) : (s.setPhase v).phase = v := rfl
@[simp] theorem State.setPhase_sel (v : Phase) : (s.setPhase v).sel = s.sel := rfl
@[simp] theorem State.setPhase_arg (v : Phase) : (s.setPhase v).arg = s.arg := rfl
@[simp] theorem State.setPhase_argc (v : Phase) : (s.setPhase v).argc = s.argc := rfl
@[simp] theorem State.setPhase_dbuf (v : Phase) : (s.setPhase v).dbuf = s.dbuf := rfl
@[simp] theorem State.setPhase_dcnt (v : Phase) : (s.setPhase v).dcnt = s.dcnt := rfl
@[simp] theorem State.setPhase_rq (v : Phase) : (s.setPhase v).rq = s.rq := rfl
@[simp] theorem State.setPhase_cfg (v : Phase) : (s.setPhase v).cfg = s.cfg := rfl
@[simp] theorem State.setPhase_bus (v : Phase) : (s.setPhase v).bus = s.bus := rfl
@[simp] theorem State.setPhase_sched (v : Phase) : (s.setPhase v).sched = s.sched := rfl
@[simp] theorem State.setPhase_replies (v : Phase) : (s.setPhase v).replies = s.replies := rfl
@[simp] theorem State.setPhase_faults (v : Phase) : (s.setPhase v).faults = s.faults := rfl
@[simp] theorem State.setPhase_trace (v : Phase) : (s.setPhase v).trace = s.trace := rfl
@[simp] theorem State.setPhase_freeIdx (v : Phase) : (s.setPhase v).freeIdx = s.freeIdx := rfl
@[simp] theorem State.setPhase_hazard (v : Phase) : (s.setPhase v).hazard = s.hazard := rfl
@[simp] theorem State.setPhase_pollDue (v : Phase) : (s.setPhase v).pollDue = s.pollDue := rfl

@[simp] theorem State.setSel_planes (v : Byte) : (s.setSel v).planes = s.planes := rfl
@[simp] theorem State.setSel_dm (v : Byte) : (s.setSel v).dm = s.dm := rfl
@[simp] theorem State.setSel_gw (v : Byte) : (s.setSel v).gw = s.gw := rfl
@[simp] theorem State.setSel_gh (v : Byte) : (s.setSel v).gh = s.gh := rfl
@[simp] theorem State.setSel_err (v : Byte) : (s.setSel v).err = s.err := rfl
@[simp] theorem State.setSel_ecode (v : Byte) : (s.setSel v).ecode = s.ecode := rfl
@[simp] theorem State.setSel_phase (v : Byte) : (s.setSel v).phase = s.phase := rfl
@[simp] theorem State.setSel_sel (v : Byte) : (s.setSel v).sel = v := rfl
@[simp] theorem State.setSel_arg (v : Byte) : (s.setSel v).arg = s.arg := rfl
@[simp] theorem State.setSel_argc (v : Byte) : (s.setSel v).argc = s.argc := rfl
@[simp] theorem State.setSel_dbuf (v : Byte) : (s.setSel v).dbuf = s.dbuf := rfl
@[simp] theorem State.setSel_dcnt (v : Byte) : (s.setSel v).dcnt = s.dcnt := rfl
@[simp] theorem State.setSel_rq (v : Byte) : (s.setSel v).rq = s.rq := rfl
@[simp] theorem State.setSel_cfg (v : Byte) : (s.setSel v).cfg = s.cfg := rfl
@[simp] theorem State.setSel_bus (v : Byte) : (s.setSel v).bus = s.bus := rfl
@[simp] theorem State.setSel_sched (v : Byte) : (s.setSel v).sched = s.sched := rfl
@[simp] theorem State.setSel_replies (v : Byte) : (s.setSel v).replies = s.replies := rfl
@[simp] theorem State.setSel_faults (v : Byte) : (s.setSel v).faults = s.faults := rfl
@[simp] theorem State.setSel_trace (v : Byte) : (s.setSel v).trace = s.trace := rfl
@[simp] theorem State.setSel_freeIdx (v : Byte) : (s.setSel v).freeIdx = s.freeIdx := rfl
@[simp] theorem State.setSel_hazard (v : Byte) : (s.setSel v).hazard = s.hazard := rfl
@[simp] theorem State.setSel_pollDue (v : Byte) : (s.setSel v).pollDue = s.pollDue := rfl

@[simp] theorem State.setArgs_planes (v : Vector Byte 8) (n : Nat) : (s.setArgs v n).planes = s.planes := rfl
@[simp] theorem State.setArgs_dm (v : Vector Byte 8) (n : Nat) : (s.setArgs v n).dm = s.dm := rfl
@[simp] theorem State.setArgs_gw (v : Vector Byte 8) (n : Nat) : (s.setArgs v n).gw = s.gw := rfl
@[simp] theorem State.setArgs_gh (v : Vector Byte 8) (n : Nat) : (s.setArgs v n).gh = s.gh := rfl
@[simp] theorem State.setArgs_err (v : Vector Byte 8) (n : Nat) : (s.setArgs v n).err = s.err := rfl
@[simp] theorem State.setArgs_ecode (v : Vector Byte 8) (n : Nat) : (s.setArgs v n).ecode = s.ecode := rfl
@[simp] theorem State.setArgs_phase (v : Vector Byte 8) (n : Nat) : (s.setArgs v n).phase = s.phase := rfl
@[simp] theorem State.setArgs_sel (v : Vector Byte 8) (n : Nat) : (s.setArgs v n).sel = s.sel := rfl
@[simp] theorem State.setArgs_arg (v : Vector Byte 8) (n : Nat) : (s.setArgs v n).arg = v := rfl
@[simp] theorem State.setArgs_argc (v : Vector Byte 8) (n : Nat) : (s.setArgs v n).argc = n := rfl
@[simp] theorem State.setArgs_dbuf (v : Vector Byte 8) (n : Nat) : (s.setArgs v n).dbuf = s.dbuf := rfl
@[simp] theorem State.setArgs_dcnt (v : Vector Byte 8) (n : Nat) : (s.setArgs v n).dcnt = s.dcnt := rfl
@[simp] theorem State.setArgs_rq (v : Vector Byte 8) (n : Nat) : (s.setArgs v n).rq = s.rq := rfl
@[simp] theorem State.setArgs_cfg (v : Vector Byte 8) (n : Nat) : (s.setArgs v n).cfg = s.cfg := rfl
@[simp] theorem State.setArgs_bus (v : Vector Byte 8) (n : Nat) : (s.setArgs v n).bus = s.bus := rfl
@[simp] theorem State.setArgs_sched (v : Vector Byte 8) (n : Nat) : (s.setArgs v n).sched = s.sched := rfl
@[simp] theorem State.setArgs_replies (v : Vector Byte 8) (n : Nat) : (s.setArgs v n).replies = s.replies := rfl
@[simp] theorem State.setArgs_faults (v : Vector Byte 8) (n : Nat) : (s.setArgs v n).faults = s.faults := rfl
@[simp] theorem State.setArgs_trace (v : Vector Byte 8) (n : Nat) : (s.setArgs v n).trace = s.trace := rfl
@[simp] theorem State.setArgs_freeIdx (v : Vector Byte 8) (n : Nat) : (s.setArgs v n).freeIdx = s.freeIdx := rfl
@[simp] theorem State.setArgs_hazard (v : Vector Byte 8) (n : Nat) : (s.setArgs v n).hazard = s.hazard := rfl
@[simp] theorem State.setArgs_pollDue (v : Vector Byte 8) (n : Nat) : (s.setArgs v n).pollDue = s.pollDue := rfl

@[simp] theorem State.setData_planes (v : List Byte) (n : Nat) : (s.setData v n).planes = s.planes := rfl
@[simp] theorem State.setData_dm (v : List Byte) (n : Nat) : (s.setData v n).dm = s.dm := rfl
@[simp] theorem State.setData_gw (v : List Byte) (n : Nat) : (s.setData v n).gw = s.gw := rfl
@[simp] theorem State.setData_gh (v : List Byte) (n : Nat) : (s.setData v n).gh = s.gh := rfl
@[simp] theorem State.setData_err (v : List Byte) (n : Nat) : (s.setData v n).err = s.err := rfl
@[simp] theorem State.setData_ecode (v : List Byte) (n : Nat) : (s.setData v n).ecode = s.ecode := rfl
@[simp] theorem State.setData_phase (v : List Byte) (n : Nat) : (s.setData v n).phase = s.phase := rfl
@[simp] theorem State.setData_sel (v : List Byte) (n : Nat) : (s.setData v n).sel = s.sel := rfl
@[simp] theorem State.setData_arg (v : List Byte) (n : Nat) : (s.setData v n).arg = s.arg := rfl
@[simp] theorem State.setData_argc (v : List Byte) (n : Nat) : (s.setData v n).argc = s.argc := rfl
@[simp] theorem State.setData_dbuf (v : List Byte) (n : Nat) : (s.setData v n).dbuf = v := rfl
@[simp] theorem State.setData_dcnt (v : List Byte) (n : Nat) : (s.setData v n).dcnt = n := rfl
@[simp] theorem State.setData_rq (v : List Byte) (n : Nat) : (s.setData v n).rq = s.rq := rfl
@[simp] theorem State.setData_cfg (v : List Byte) (n : Nat) : (s.setData v n).cfg = s.cfg := rfl
@[simp] theorem State.setData_bus (v : List Byte) (n : Nat) : (s.setData v n).bus = s.bus := rfl
@[simp] theorem State.setData_sched (v : List Byte) (n : Nat) : (s.setData v n).sched = s.sched := rfl
@[simp] theorem State.setData_replies (v : List Byte) (n : Nat) : (s.setData v n).replies = s.replies := rfl
@[simp] theorem State.setData_faults (v : List Byte) (n : Nat) : (s.setData v n).faults = s.faults := rfl
@[simp] theorem State.setData_trace (v : List Byte) (n : Nat) : (s.setData v n).trace = s.trace := rfl
@[simp] theorem State.setData_freeIdx (v : List Byte) (n : Nat) : (s.setData v n).freeIdx = s.freeIdx := rfl
@[simp] theorem State.setData_hazard (v : List Byte) (n : Nat) : (s.setData v n).hazard = s.hazard := rfl
@[simp] theorem State.setData_pollDue (v : List Byte) (n : Nat) : (s.setData v n).pollDue = s.pollDue := rfl

@[simp] theorem State.setRq_planes (v : List Byte) : (s.setRq v).planes = s.planes := rfl
@[simp] theorem State.setRq_dm (v : List Byte) : (s.setRq v).dm = s.dm := rfl
@[simp] theorem State.setRq_gw (v : List Byte) : (s.setRq v).gw = s.gw := rfl
@[simp] theorem State.setRq_gh (v : List Byte) : (s.setRq v).gh = s.gh := rfl
@[simp] theorem State.setRq_err (v : List Byte) : (s.setRq v).err = s.err := rfl
@[simp] theorem State.setRq_ecode (v : List Byte) : (s.setRq v).ecode = s.ecode := rfl
@[simp] theorem State.setRq_phase (v : List Byte) : (s.setRq v).phase = s.phase := rfl
@[simp] theorem State.setRq_sel (v : List Byte) : (s.setRq v).sel = s.sel := rfl
@[simp] theorem State.setRq_arg (v : List Byte) : (s.setRq v).arg = s.arg := rfl
@[simp] theorem State.setRq_argc (v : List Byte) : (s.setRq v).argc = s.argc := rfl
@[simp] theorem State.setRq_dbuf (v : List Byte) : (s.setRq v).dbuf = s.dbuf := rfl
@[simp] theorem State.setRq_dcnt (v : List Byte) : (s.setRq v).dcnt = s.dcnt := rfl
@[simp] theorem State.setRq_rq (v : List Byte) : (s.setRq v).rq = v := rfl
@[simp] theorem State.setRq_cfg (v : List Byte) : (s.setRq v).cfg = s.cfg := rfl
@[simp] theorem State.setRq_bus (v : List Byte) : (s.setRq v).bus = s.bus := rfl
@[simp] theorem State.setRq_sched (v : List Byte) : (s.setRq v).sched = s.sched := rfl
@[simp] theorem State.setRq_replies (v : List Byte) : (s.setRq v).replies = s.replies := rfl
@[simp] theorem State.setRq_faults (v : List Byte) : (s.setRq v).faults = s.faults := rfl
@[simp] theorem State.setRq_trace (v : List Byte) : (s.setRq v).trace = s.trace := rfl
@[simp] theorem State.setRq_freeIdx (v : List Byte) : (s.setRq v).freeIdx = s.freeIdx := rfl
@[simp] theorem State.setRq_hazard (v : List Byte) : (s.setRq v).hazard = s.hazard := rfl
@[simp] theorem State.setRq_pollDue (v : List Byte) : (s.setRq v).pollDue = s.pollDue := rfl

@[simp] theorem State.setBus_planes (v : List HostEvent) : (s.setBus v).planes = s.planes := rfl
@[simp] theorem State.setBus_dm (v : List HostEvent) : (s.setBus v).dm = s.dm := rfl
@[simp] theorem State.setBus_gw (v : List HostEvent) : (s.setBus v).gw = s.gw := rfl
@[simp] theorem State.setBus_gh (v : List HostEvent) : (s.setBus v).gh = s.gh := rfl
@[simp] theorem State.setBus_err (v : List HostEvent) : (s.setBus v).err = s.err := rfl
@[simp] theorem State.setBus_ecode (v : List HostEvent) : (s.setBus v).ecode = s.ecode := rfl
@[simp] theorem State.setBus_phase (v : List HostEvent) : (s.setBus v).phase = s.phase := rfl
@[simp] theorem State.setBus_sel (v : List HostEvent) : (s.setBus v).sel = s.sel := rfl
@[simp] theorem State.setBus_arg (v : List HostEvent) : (s.setBus v).arg = s.arg := rfl
@[simp] theorem State.setBus_argc (v : List HostEvent) : (s.setBus v).argc = s.argc := rfl
@[simp] theorem State.setBus_dbuf (v : List HostEvent) : (s.setBus v).dbuf = s.dbuf := rfl
@[simp] theorem State.setBus_dcnt (v : List HostEvent) : (s.setBus v).dcnt = s.dcnt := rfl
@[simp] theorem State.setBus_rq (v : List HostEvent) : (s.setBus v).rq = s.rq := rfl
@[simp] theorem State.setBus_cfg (v : List HostEvent) : (s.setBus v).cfg = s.cfg := rfl
@[simp] theorem State.setBus_bus (v : List HostEvent) : (s.setBus v).bus = v := rfl
@[simp] theorem State.setBus_sched (v : List HostEvent) : (s.setBus v).sched = s.sched := rfl
@[simp] theorem State.setBus_replies (v : List HostEvent) : (s.setBus v).replies = s.replies := rfl
@[simp] theorem State.setBus_faults (v : List HostEvent) : (s.setBus v).faults = s.faults := rfl
@[simp] theorem State.setBus_trace (v : List HostEvent) : (s.setBus v).trace = s.trace := rfl
@[simp] theorem State.setBus_freeIdx (v : List HostEvent) : (s.setBus v).freeIdx = s.freeIdx := rfl
@[simp] theorem State.setBus_hazard (v : List HostEvent) : (s.setBus v).hazard = s.hazard := rfl
@[simp] theorem State.setBus_pollDue (v : List HostEvent) : (s.setBus v).pollDue = s.pollDue := rfl
@[simp] theorem State.setBus_toEngine (v : List HostEvent) : (s.setBus v).toEngine = s.toEngine := rfl

@[simp] theorem State.setSched_planes (v : List Agent) : (s.setSched v).planes = s.planes := rfl
@[simp] theorem State.setSched_dm (v : List Agent) : (s.setSched v).dm = s.dm := rfl
@[simp] theorem State.setSched_gw (v : List Agent) : (s.setSched v).gw = s.gw := rfl
@[simp] theorem State.setSched_gh (v : List Agent) : (s.setSched v).gh = s.gh := rfl
@[simp] theorem State.setSched_err (v : List Agent) : (s.setSched v).err = s.err := rfl
@[simp] theorem State.setSched_ecode (v : List Agent) : (s.setSched v).ecode = s.ecode := rfl
@[simp] theorem State.setSched_phase (v : List Agent) : (s.setSched v).phase = s.phase := rfl
@[simp] theorem State.setSched_sel (v : List Agent) : (s.setSched v).sel = s.sel := rfl
@[simp] theorem State.setSched_arg (v : List Agent) : (s.setSched v).arg = s.arg := rfl
@[simp] theorem State.setSched_argc (v : List Agent) : (s.setSched v).argc = s.argc := rfl
@[simp] theorem State.setSched_dbuf (v : List Agent) : (s.setSched v).dbuf = s.dbuf := rfl
@[simp] theorem State.setSched_dcnt (v : List Agent) : (s.setSched v).dcnt = s.dcnt := rfl
@[simp] theorem State.setSched_rq (v : List Agent) : (s.setSched v).rq = s.rq := rfl
@[simp] theorem State.setSched_cfg (v : List Agent) : (s.setSched v).cfg = s.cfg := rfl
@[simp] theorem State.setSched_bus (v : List Agent) : (s.setSched v).bus = s.bus := rfl
@[simp] theorem State.setSched_sched (v : List Agent) : (s.setSched v).sched = v := rfl
@[simp] theorem State.setSched_replies (v : List Agent) : (s.setSched v).replies = s.replies := rfl
@[simp] theorem State.setSched_faults (v : List Agent) : (s.setSched v).faults = s.faults := rfl
@[simp] theorem State.setSched_trace (v : List Agent) : (s.setSched v).trace = s.trace := rfl
@[simp] theorem State.setSched_freeIdx (v : List Agent) : (s.setSched v).freeIdx = s.freeIdx := rfl
@[simp] theorem State.setSched_hazard (v : List Agent) : (s.setSched v).hazard = s.hazard := rfl
@[simp] theorem State.setSched_pollDue (v : List Agent) : (s.setSched v).pollDue = s.pollDue := rfl
@[simp] theorem State.setSched_toEngine (v : List Agent) : (s.setSched v).toEngine = s.toEngine := rfl

@[simp] theorem State.reply_planes (v : Byte) : (s.reply v).planes = s.planes := rfl
@[simp] theorem State.reply_dm (v : Byte) : (s.reply v).dm = s.dm := rfl
@[simp] theorem State.reply_gw (v : Byte) : (s.reply v).gw = s.gw := rfl
@[simp] theorem State.reply_gh (v : Byte) : (s.reply v).gh = s.gh := rfl
@[simp] theorem State.reply_err (v : Byte) : (s.reply v).err = s.err := rfl
@[simp] theorem State.reply_ecode (v : Byte) : (s.reply v).ecode = s.ecode := rfl
@[simp] theorem State.reply_phase (v : Byte) : (s.reply v).phase = s.phase := rfl
@[simp] theorem State.reply_sel (v : Byte) : (s.reply v).sel = s.sel := rfl
@[simp] theorem State.reply_arg (v : Byte) : (s.reply v).arg = s.arg := rfl
@[simp] theorem State.reply_argc (v : Byte) : (s.reply v).argc = s.argc := rfl
@[simp] theorem State.reply_dbuf (v : Byte) : (s.reply v).dbuf = s.dbuf := rfl
@[simp] theorem State.reply_dcnt (v : Byte) : (s.reply v).dcnt = s.dcnt := rfl
@[simp] theorem State.reply_rq (v : Byte) : (s.reply v).rq = s.rq := rfl
@[simp] theorem State.reply_cfg (v : Byte) : (s.reply v).cfg = s.cfg := rfl
@[simp] theorem State.reply_bus (v : Byte) : (s.reply v).bus = s.bus := rfl
@[simp] theorem State.reply_sched (v : Byte) : (s.reply v).sched = s.sched := rfl
@[simp] theorem State.reply_replies (v : Byte) : (s.reply v).replies = v :: s.replies := rfl
@[simp] theorem State.reply_faults (v : Byte) : (s.reply v).faults = s.faults := rfl
@[simp] theorem State.reply_trace (v : Byte) : (s.reply v).trace = s.trace := rfl
@[simp] theorem State.reply_freeIdx (v : Byte) : (s.reply v).freeIdx = s.freeIdx := rfl
@[simp] theorem State.reply_hazard (v : Byte) : (s.reply v).hazard = s.hazard := rfl
@[simp] theorem State.reply_pollDue (v : Byte) : (s.reply v).pollDue = s.pollDue := rfl
@[simp] theorem State.reply_toEngine (v : Byte) : (s.reply v).toEngine = s.toEngine := rfl

@[simp] theorem State.logFault_planes (o : Op) (c : FaultCause) : (s.logFault o c).planes = s.planes := rfl
@[simp] theorem State.logFault_dm (o : Op) (c : FaultCause) : (s.logFault o c).dm = s.dm := rfl
@[simp] theorem State.logFault_gw (o : Op) (c : FaultCause) : (s.logFault o c).gw = s.gw := rfl
@[simp] theorem State.logFault_gh (o : Op) (c : FaultCause) : (s.logFault o c).gh = s.gh := rfl
@[simp] theorem State.logFault_err (o : Op) (c : FaultCause) : (s.logFault o c).err = s.err := rfl
@[simp] theorem State.logFault_ecode (o : Op) (c : FaultCause) : (s.logFault o c).ecode = s.ecode := rfl
@[simp] theorem State.logFault_phase (o : Op) (c : FaultCause) : (s.logFault o c).phase = s.phase := rfl
@[simp] theorem State.logFault_sel (o : Op) (c : FaultCause) : (s.logFault o c).sel = s.sel := rfl
@[simp] theorem State.logFault_arg (o : Op) (c : FaultCause) : (s.logFault o c).arg = s.arg := rfl
@[simp] theorem State.logFault_argc (o : Op) (c : FaultCause) : (s.logFault o c).argc = s.argc := rfl
@[simp] theorem State.logFault_dbuf (o : Op) (c : FaultCause) : (s.logFault o c).dbuf = s.dbuf := rfl
@[simp] theorem State.logFault_dcnt (o : Op) (c : FaultCause) : (s.logFault o c).dcnt = s.dcnt := rfl
@[simp] theorem State.logFault_rq (o : Op) (c : FaultCause) : (s.logFault o c).rq = s.rq := rfl
@[simp] theorem State.logFault_cfg (o : Op) (c : FaultCause) : (s.logFault o c).cfg = s.cfg := rfl
@[simp] theorem State.logFault_bus (o : Op) (c : FaultCause) : (s.logFault o c).bus = s.bus := rfl
@[simp] theorem State.logFault_sched (o : Op) (c : FaultCause) : (s.logFault o c).sched = s.sched := rfl
@[simp] theorem State.logFault_replies (o : Op) (c : FaultCause) : (s.logFault o c).replies = s.replies := rfl
@[simp] theorem State.logFault_faults (o : Op) (c : FaultCause) : (s.logFault o c).faults = ⟨o, c⟩ :: s.faults := rfl
@[simp] theorem State.logFault_trace (o : Op) (c : FaultCause) : (s.logFault o c).trace = s.trace := rfl
@[simp] theorem State.logFault_freeIdx (o : Op) (c : FaultCause) : (s.logFault o c).freeIdx = s.freeIdx := rfl
@[simp] theorem State.logFault_hazard (o : Op) (c : FaultCause) : (s.logFault o c).hazard = s.hazard := rfl
@[simp] theorem State.logFault_pollDue (o : Op) (c : FaultCause) : (s.logFault o c).pollDue = s.pollDue := rfl
@[simp] theorem State.logFault_toEngine (o : Op) (c : FaultCause) : (s.logFault o c).toEngine = s.toEngine := rfl

@[simp] theorem State.logAccess_planes (a : Access) : (s.logAccess a).planes = s.planes := rfl
@[simp] theorem State.logAccess_dm (a : Access) : (s.logAccess a).dm = s.dm := rfl
@[simp] theorem State.logAccess_gw (a : Access) : (s.logAccess a).gw = s.gw := rfl
@[simp] theorem State.logAccess_gh (a : Access) : (s.logAccess a).gh = s.gh := rfl
@[simp] theorem State.logAccess_err (a : Access) : (s.logAccess a).err = s.err := rfl
@[simp] theorem State.logAccess_ecode (a : Access) : (s.logAccess a).ecode = s.ecode := rfl
@[simp] theorem State.logAccess_phase (a : Access) : (s.logAccess a).phase = s.phase := rfl
@[simp] theorem State.logAccess_sel (a : Access) : (s.logAccess a).sel = s.sel := rfl
@[simp] theorem State.logAccess_arg (a : Access) : (s.logAccess a).arg = s.arg := rfl
@[simp] theorem State.logAccess_argc (a : Access) : (s.logAccess a).argc = s.argc := rfl
@[simp] theorem State.logAccess_dbuf (a : Access) : (s.logAccess a).dbuf = s.dbuf := rfl
@[simp] theorem State.logAccess_dcnt (a : Access) : (s.logAccess a).dcnt = s.dcnt := rfl
@[simp] theorem State.logAccess_rq (a : Access) : (s.logAccess a).rq = s.rq := rfl
@[simp] theorem State.logAccess_cfg (a : Access) : (s.logAccess a).cfg = s.cfg := rfl
@[simp] theorem State.logAccess_bus (a : Access) : (s.logAccess a).bus = s.bus := rfl
@[simp] theorem State.logAccess_sched (a : Access) : (s.logAccess a).sched = s.sched := rfl
@[simp] theorem State.logAccess_replies (a : Access) : (s.logAccess a).replies = s.replies := rfl
@[simp] theorem State.logAccess_faults (a : Access) : (s.logAccess a).faults = s.faults := rfl
@[simp] theorem State.logAccess_trace (a : Access) : (s.logAccess a).trace = a :: s.trace := rfl
@[simp] theorem State.logAccess_freeIdx (a : Access) : (s.logAccess a).freeIdx = s.freeIdx := rfl
@[simp] theorem State.logAccess_hazard (a : Access) : (s.logAccess a).hazard = s.hazard := rfl
@[simp] theorem State.logAccess_pollDue (a : Access) : (s.logAccess a).pollDue = s.pollDue := rfl
@[simp] theorem State.logAccess_toEngine (a : Access) : (s.logAccess a).toEngine = s.toEngine := rfl

@[simp] theorem State.nextFree_planes : (s.nextFree).planes = s.planes := rfl
@[simp] theorem State.nextFree_dm : (s.nextFree).dm = s.dm := rfl
@[simp] theorem State.nextFree_gw : (s.nextFree).gw = s.gw := rfl
@[simp] theorem State.nextFree_gh : (s.nextFree).gh = s.gh := rfl
@[simp] theorem State.nextFree_err : (s.nextFree).err = s.err := rfl
@[simp] theorem State.nextFree_ecode : (s.nextFree).ecode = s.ecode := rfl
@[simp] theorem State.nextFree_phase : (s.nextFree).phase = s.phase := rfl
@[simp] theorem State.nextFree_sel : (s.nextFree).sel = s.sel := rfl
@[simp] theorem State.nextFree_arg : (s.nextFree).arg = s.arg := rfl
@[simp] theorem State.nextFree_argc : (s.nextFree).argc = s.argc := rfl
@[simp] theorem State.nextFree_dbuf : (s.nextFree).dbuf = s.dbuf := rfl
@[simp] theorem State.nextFree_dcnt : (s.nextFree).dcnt = s.dcnt := rfl
@[simp] theorem State.nextFree_rq : (s.nextFree).rq = s.rq := rfl
@[simp] theorem State.nextFree_cfg : (s.nextFree).cfg = s.cfg := rfl
@[simp] theorem State.nextFree_bus : (s.nextFree).bus = s.bus := rfl
@[simp] theorem State.nextFree_sched : (s.nextFree).sched = s.sched := rfl
@[simp] theorem State.nextFree_replies : (s.nextFree).replies = s.replies := rfl
@[simp] theorem State.nextFree_faults : (s.nextFree).faults = s.faults := rfl
@[simp] theorem State.nextFree_trace : (s.nextFree).trace = s.trace := rfl
@[simp] theorem State.nextFree_freeIdx : (s.nextFree).freeIdx = s.freeIdx + 1 := rfl
@[simp] theorem State.nextFree_hazard : (s.nextFree).hazard = s.hazard := rfl
@[simp] theorem State.nextFree_pollDue : (s.nextFree).pollDue = s.pollDue := rfl
@[simp] theorem State.nextFree_toEngine : (s.nextFree).toEngine = s.toEngine := rfl

@[simp] theorem State.setHazard_planes (v : Bool) : (s.setHazard v).planes = s.planes := rfl
@[simp] theorem State.setHazard_dm (v : Bool) : (s.setHazard v).dm = s.dm := rfl
@[simp] theorem State.setHazard_gw (v : Bool) : (s.setHazard v).gw = s.gw := rfl
@[simp] theorem State.setHazard_gh (v : Bool) : (s.setHazard v).gh = s.gh := rfl
@[simp] theorem State.setHazard_err (v : Bool) : (s.setHazard v).err = s.err := rfl
@[simp] theorem State.setHazard_ecode (v : Bool) : (s.setHazard v).ecode = s.ecode := rfl
@[simp] theorem State.setHazard_phase (v : Bool) : (s.setHazard v).phase = s.phase := rfl
@[simp] theorem State.setHazard_sel (v : Bool) : (s.setHazard v).sel = s.sel := rfl
@[simp] theorem State.setHazard_arg (v : Bool) : (s.setHazard v).arg = s.arg := rfl
@[simp] theorem State.setHazard_argc (v : Bool) : (s.setHazard v).argc = s.argc := rfl
@[simp] theorem State.setHazard_dbuf (v : Bool) : (s.setHazard v).dbuf = s.dbuf := rfl
@[simp] theorem State.setHazard_dcnt (v : Bool) : (s.setHazard v).dcnt = s.dcnt := rfl
@[simp] theorem State.setHazard_rq (v : Bool) : (s.setHazard v).rq = s.rq := rfl
@[simp] theorem State.setHazard_cfg (v : Bool) : (s.setHazard v).cfg = s.cfg := rfl
@[simp] theorem State.setHazard_bus (v : Bool) : (s.setHazard v).bus = s.bus := rfl
@[simp] theorem State.setHazard_sched (v : Bool) : (s.setHazard v).sched = s.sched := rfl
@[simp] theorem State.setHazard_replies (v : Bool) : (s.setHazard v).replies = s.replies := rfl
@[simp] theorem State.setHazard_faults (v : Bool) : (s.setHazard v).faults = s.faults := rfl
@[simp] theorem State.setHazard_trace (v : Bool) : (s.setHazard v).trace = s.trace := rfl
@[simp] theorem State.setHazard_freeIdx (v : Bool) : (s.setHazard v).freeIdx = s.freeIdx := rfl
@[simp] theorem State.setHazard_hazard (v : Bool) : (s.setHazard v).hazard = v := rfl
@[simp] theorem State.setHazard_pollDue (v : Bool) : (s.setHazard v).pollDue = s.pollDue := rfl
@[simp] theorem State.setHazard_toEngine (v : Bool) : (s.setHazard v).toEngine = s.toEngine := rfl

@[simp] theorem State.setPollDue_planes (v : Bool) : (s.setPollDue v).planes = s.planes := rfl
@[simp] theorem State.setPollDue_dm (v : Bool) : (s.setPollDue v).dm = s.dm := rfl
@[simp] theorem State.setPollDue_gw (v : Bool) : (s.setPollDue v).gw = s.gw := rfl
@[simp] theorem State.setPollDue_gh (v : Bool) : (s.setPollDue v).gh = s.gh := rfl
@[simp] theorem State.setPollDue_err (v : Bool) : (s.setPollDue v).err = s.err := rfl
@[simp] theorem State.setPollDue_ecode (v : Bool) : (s.setPollDue v).ecode = s.ecode := rfl
@[simp] theorem State.setPollDue_phase (v : Bool) : (s.setPollDue v).phase = s.phase := rfl
@[simp] theorem State.setPollDue_sel (v : Bool) : (s.setPollDue v).sel = s.sel := rfl
@[simp] theorem State.setPollDue_arg (v : Bool) : (s.setPollDue v).arg = s.arg := rfl
@[simp] theorem State.setPollDue_argc (v : Bool) : (s.setPollDue v).argc = s.argc := rfl
@[simp] theorem State.setPollDue_dbuf (v : Bool) : (s.setPollDue v).dbuf = s.dbuf := rfl
@[simp] theorem State.setPollDue_dcnt (v : Bool) : (s.setPollDue v).dcnt = s.dcnt := rfl
@[simp] theorem State.setPollDue_rq (v : Bool) : (s.setPollDue v).rq = s.rq := rfl
@[simp] theorem State.setPollDue_cfg (v : Bool) : (s.setPollDue v).cfg = s.cfg := rfl
@[simp] theorem State.setPollDue_bus (v : Bool) : (s.setPollDue v).bus = s.bus := rfl
@[simp] theorem State.setPollDue_sched (v : Bool) : (s.setPollDue v).sched = s.sched := rfl
@[simp] theorem State.setPollDue_replies (v : Bool) : (s.setPollDue v).replies = s.replies := rfl
@[simp] theorem State.setPollDue_faults (v : Bool) : (s.setPollDue v).faults = s.faults := rfl
@[simp] theorem State.setPollDue_trace (v : Bool) : (s.setPollDue v).trace = s.trace := rfl
@[simp] theorem State.setPollDue_freeIdx (v : Bool) : (s.setPollDue v).freeIdx = s.freeIdx := rfl
@[simp] theorem State.setPollDue_hazard (v : Bool) : (s.setPollDue v).hazard = s.hazard := rfl
@[simp] theorem State.setPollDue_pollDue (v : Bool) : (s.setPollDue v).pollDue = v := rfl
@[simp] theorem State.setPollDue_toEngine (v : Bool) : (s.setPollDue v).toEngine = s.toEngine := rfl

end Sys2Proof.Machine
end

