-- ==== Sys2Proof/Laws/Ops.lean ====
section
/-!
SUPPORT. For each shared operation of Ops.lean, what it does, said once: plane accesses, the error action, the sequencer's
transitions, a command's frame.
-/

namespace Sys2Proof.Machine

/-! ### Plane accesses -/

/-- `t` is `s` but for the planes, the trace and the free-value counter: what a plane-writing primitive may change. -/
def PlanesOnly (s t : State) : Prop :=
  ∃ (pl : Quad PlaneMem) (tr : List Access) (n : Nat), t = { s with planes := pl, trace := tr, freeIdx := n }

theorem PlanesOnly.refl (s : State) : PlanesOnly s s := ⟨s.planes, s.trace, s.freeIdx, rfl⟩

theorem PlanesOnly.trans {s t u : State} : PlanesOnly s t → PlanesOnly t u → PlanesOnly s u := by
  rintro ⟨_, _, _, rfl⟩ ⟨pl, tr, n, rfl⟩
  exact ⟨pl, tr, n, rfl⟩

/-- `t` is `s` but for the trace and the result queue: what a plane-reading primitive may change. -/
def ReadsOnly (s t : State) : Prop := ∃ (tr : List Access) (q : List Byte), t = { s with trace := tr, rq := q }

theorem ReadsOnly.refl (s : State) : ReadsOnly s s := ⟨s.trace, s.rq, rfl⟩

theorem ReadsOnly.trans {s t u : State} : ReadsOnly s t → ReadsOnly t u → ReadsOnly s u := by
  rintro ⟨_, _, rfl⟩ ⟨tr, q, rfl⟩
  exact ⟨tr, q, rfl⟩

/-- Every plane in canonical form. -/
def State.canonical (s : State) : Prop := ∀ p, memWf (s.planes.get p)

theorem State.planeByte_putByte {s : State} {p : Plane} (h : memWf (s.planes.get p)) (off : Nat) (v : Byte) (r : Plane)
    (x : Nat) : (s.putByte p off v).planeByte r x = if r = p ∧ x = off then v else s.planeByte r x := by
  unfold State.planeByte State.putByte
  rw [State.setPlanes_planes, Quad.get_set]
  by_cases hr : r = p
  · subst hr
    simp [memRead_memWrite h]
  · simp [hr]

theorem State.canonical_putByte {s : State} (h : s.canonical) (p : Plane) (off : Nat) (v : Byte) :
    (s.putByte p off v).canonical := by
  intro r
  unfold State.putByte
  rw [State.setPlanes_planes, Quad.get_set]
  split
  · exact memWf_memWrite off v (h p)
  · exact h r

@[simp] theorem State.planeByte_planeRead (s : State) (p : Plane) (off : Nat) (r : Plane) (x : Nat) :
    (s.planeRead p off).planeByte r x = s.planeByte r x := rfl

theorem State.planeRead_readsOnly (s : State) (p : Plane) (off : Nat) : ReadsOnly s (s.planeRead p off) := ⟨_, s.rq, rfl⟩

theorem State.planeRead_planesOnly (s : State) (p : Plane) (off : Nat) : PlanesOnly s (s.planeRead p off) :=
  ⟨s.planes, _, s.freeIdx, rfl⟩

theorem State.planeWrite_planesOnly (s : State) (p : Plane) (off : Nat) (v : Byte) :
    PlanesOnly s (s.planeWrite p off v) := by
  unfold State.planeWrite
  split
  · exact ⟨_, _, _, rfl⟩
  · exact ⟨_, _, s.freeIdx, rfl⟩

theorem State.canonical_planeWrite {s : State} (h : s.canonical) (p : Plane) (off : Nat) (v : Byte) :
    (s.planeWrite p off v).canonical := by
  unfold State.planeWrite
  split
  · exact State.canonical_putByte h p off _
  · exact State.canonical_putByte h p off v

/-- A plane write where nothing is undefined: the byte lands, every other byte stays. -/
theorem State.planeByte_planeWrite {s : State} (hz : s.hazard = false) (h : s.canonical) (p : Plane) (off : Nat) (v : Byte)
    (r : Plane) (x : Nat) :
    (s.planeWrite p off v).planeByte r x = if r = p ∧ x = off then v else s.planeByte r x := by
  unfold State.planeWrite
  rw [hz]
  exact State.planeByte_putByte (h p) off v r x

/-- A plane write, undefined or not, leaves every other byte. -/
theorem State.planeByte_planeWrite_ne {s : State} (h : s.canonical) (p : Plane) (off : Nat) (v : Byte)
    (r : Plane) (x : Nat) (hx : ¬(r = p ∧ x = off)) : (s.planeWrite p off v).planeByte r x = s.planeByte r x := by
  unfold State.planeWrite
  split
  · exact (State.planeByte_putByte (h p) off _ r x).trans (if_neg hx)
  · exact (State.planeByte_putByte (h p) off v r x).trans (if_neg hx)

/-- Any property of a memory's entries that the written offset has is kept by a write. -/
theorem forall_mem_memWrite {m : PlaneMem} {a n : Nat} (v : Byte) (h : ∀ c ∈ m, c.1 < n) (ha : a < n) :
    ∀ c ∈ memWrite m a v, c.1 < n := by
  intro c hc
  rcases mem_memWrite hc with ⟨rfl, -⟩ | hc
  · exact ha
  · exact h c hc

/-! ### The error action and the sequencer's transitions -/

/-- `raise Error(code)` latches the first code and changes no engine state but STATUS (60_exceptions R720). -/
theorem raiseError_eq (op : Op) (c : ErrCode) (s : State) :
    raiseError op c s =
      { s with err := true, ecode := if s.err then s.ecode else c, faults := ⟨op, .error c⟩ :: s.faults } := rfl

theorem toIdle_eq (s : State) : toIdle s = { s with phase := .idle, hazard := false } := rfl

theorem enterExec_eq (s : State) : enterExec s = { s with phase := .exec, pollDue := true } := rfl

theorem rejectCommand_eq (k : Kind) (e : ErrCode) (s : State) :
    rejectCommand k e s =
      { s with err := true, ecode := if s.err then s.ecode else e, phase := .idle, hazard := false, pollDue := true,
               faults := ⟨.command k, .error e⟩ :: s.faults } := rfl

theorem clearProgress_eq (s : State) : clearProgress s = { s with argc := 0, dbuf := [], dcnt := 0 } := rfl

/-- The end of an Exec step (40_sequencer R415). -/
theorem finish_eq (s : State) :
    finish s = { s with phase := .idle, hazard := false, argc := 0, dbuf := [], dcnt := 0 } := rfl

/-- Noting a late poll changes the fault record and the poll flag only. -/
theorem notePoll_cases (op : Op) (s : State) :
    notePoll op s = s ∨
      (s.pollDue = true ∧ s.phase ≠ .exec ∧
        notePoll op s = { s with faults := ⟨op, .unpolled⟩ :: s.faults, pollDue := false }) := by
  unfold notePoll
  split
  · rename_i h
    simp only [State.busyFlag, Bool.and_eq_true, Bool.not_eq_true', beq_eq_false_iff_ne, ne_eq] at h
    exact Or.inr ⟨h.1, h.2, rfl⟩
  · exact Or.inl rfl

/-- ArgsComplete: an error and Idle, RSET's data phase, or Exec (40_sequencer R410). -/
theorem argsComplete_cases (k : Kind) (s : State) :
    (∃ e, validate k s = some e ∧ argsComplete k s = rejectCommand k e s) ∨
      (validate k s = none ∧ k = .rset ∧ s.dataCount ≠ 0 ∧ argsComplete k s = s.setPhase .data) ∨
      (validate k s = none ∧ (k = .rset → s.dataCount = 0) ∧ argsComplete k s = enterExec s) := by
  unfold argsComplete
  cases hv : validate k s with
  | some e => exact Or.inl ⟨e, rfl, rfl⟩
  | none =>
    by_cases hk : k = .rset
    · by_cases hn : s.dataCount = 0
      · exact Or.inr (Or.inr ⟨rfl, fun _ => hn, by simp [hk, hn]⟩)
      · exact Or.inr (Or.inl ⟨rfl, hk, hn, by simp [hk, hn]⟩)
    · exact Or.inr (Or.inr ⟨rfl, fun h => absurd h hk, by simp [hk]⟩)

/-- A pixel or range command that answers a next state: its error, or its effect. -/
theorem runCommand_next {k : Kind} {check : Option ErrCode} {top : Nat} {effect : State → State} {s t : State}
    (h : runCommand k check top effect s = .next t) :
    (∃ e, check = some e ∧ t = toIdle (raiseError (.command k) e s)) ∨
      (check = none ∧ top < s.cfg.planeBytes ∧ t = finish (effect s)) := by
  unfold runCommand at h
  cases check with
  | some e => exact Or.inl ⟨e, rfl, by simpa using h.symm⟩
  | none =>
    simp only at h
    split at h
    · exact Or.inr ⟨rfl, by assumption, by simpa using h.symm⟩
    · cases h

/-- A pixel or range command never refuses, and faults only on an offset that does not exist. -/
theorem runCommand_fault {k : Kind} {check : Option ErrCode} {top : Nat} {effect : State → State} {s : State} {f : Fault}
    (h : runCommand k check top effect s = .fault f) : check = none ∧ s.cfg.planeBytes ≤ top ∧ f = .planeOffset := by
  unfold runCommand at h
  cases check with
  | some e => cases h
  | none =>
    simp only at h
    split at h
    · cases h
    · exact ⟨rfl, by omega, by simpa using h.symm⟩

end Sys2Proof.Machine
end

