-- ==== Sys2Proof/Laws/Datapath.lean ====
section
/-!
SUPPORT. What the datapath's primitives do, said once: PixelWrite, ByteWrite and the reads; and how a relation or an
invariant carries over the walk of a split range.
-/

namespace Sys2Proof.Machine

/-- One plane of PixelWrite (41_datapath R465). -/
theorem pixelWrite_eq (f : Nat) (c : Colour) (s : State) :
    pixelWrite f c s = Plane.all.foldl (fun t p => (t.planeRead p (f / 8)).planeWrite p (f / 8)
      (mrmw t.dm (t.planeByte p (f / 8)) (bcastC c p) (0x80#8 >>> (f % 8)))) s := rfl

/-- Fold a reflexive transitive relation along a list of steps. -/
theorem foldl_rel {α : Type} {R : State → State → Prop} (refl : ∀ s, R s s)
    (trans : ∀ {s t u}, R s t → R t u → R s u) {step : State → α → State} (h : ∀ s a, R s (step s a)) (l : List α)
    (s : State) : R s (l.foldl step s) := by
  induction l generalizing s with
  | nil => exact refl s
  | cons a l ih => exact trans (h s a) (ih _)

/-- Keep a property along a list of steps. -/
theorem foldl_inv {α : Type} {P : State → Prop} {step : State → α → State} {l : List α}
    (h : ∀ s a, a ∈ l → P s → P (step s a)) {s : State} (hs : P s) : P (l.foldl step s) := by
  induction l generalizing s with
  | nil => exact hs
  | cons a l ih =>
    exact ih (fun s b hb => h s b (List.mem_cons_of_mem _ hb)) (h s a List.mem_cons_self hs)

theorem overRange_rel {R : State → State → Prop} (refl : ∀ s, R s s) (trans : ∀ {s t u}, R s t → R t u → R s u)
    {pixel byte : Nat → State → State} (hp : ∀ f s, R s (pixel f s)) (hb : ∀ k s, R s (byte k s)) (ls le : Nat)
    (s : State) : R s (overRange ls le pixel byte s) :=
  trans (trans (foldl_rel refl trans (fun s f => hp f s) _ s) (foldl_rel refl trans (fun s k => hb k s) _ _))
    (foldl_rel refl trans (fun s f => hp f s) _ _)

theorem overRange_inv {P : State → Prop} {pixel byte : Nat → State → State} {ls le : Nat}
    (hp : ∀ f s, f ∈ (split ls le).head ∨ f ∈ (split ls le).tail → P s → P (pixel f s))
    (hb : ∀ k s, k ∈ (split ls le).interior → P s → P (byte k s)) {s : State} (hs : P s) :
    P (overRange ls le pixel byte s) :=
  foldl_inv (fun t f hf ht => hp f t (Or.inr hf) ht)
    (foldl_inv (fun t k hk ht => hb k t hk ht) (foldl_inv (fun t f hf ht => hp f t (Or.inl hf) ht) hs))

theorem pixelWrite_planesOnly (f : Nat) (c : Colour) (s : State) : PlanesOnly s (pixelWrite f c s) :=
  foldl_rel PlanesOnly.refl PlanesOnly.trans
    (fun t _ => (State.planeRead_planesOnly t _ _).trans (State.planeWrite_planesOnly _ _ _ _)) _ s

theorem byteWrite_planesOnly (k : Nat) (d : Quad Byte) (s : State) : PlanesOnly s (byteWrite k d s) := by
  refine foldl_rel PlanesOnly.refl PlanesOnly.trans (fun t p => ?_) _ s
  split
  · exact State.planeWrite_planesOnly _ _ _ _
  · exact (State.planeRead_planesOnly t _ _).trans (State.planeWrite_planesOnly _ _ _ _)

theorem readPlanes_readsOnly (pos : Nat) (s : State) : ReadsOnly s (readPlanes pos s) :=
  foldl_rel ReadsOnly.refl ReadsOnly.trans (fun t p => State.planeRead_readsOnly t p pos) _ s

theorem State.pushResult_readsOnly (s : State) (b : Byte) : ReadsOnly s (s.pushResult b) := ⟨s.trace, _, rfl⟩

theorem pushPixel_readsOnly (f : Nat) (s : State) : ReadsOnly s (pushPixel f s) :=
  (readPlanes_readsOnly _ s).trans (State.pushResult_readsOnly _ _)

theorem pushByte_readsOnly (k : Nat) (s : State) : ReadsOnly s (pushByte k s) :=
  (readPlanes_readsOnly k s).trans
    (foldl_rel ReadsOnly.refl ReadsOnly.trans (fun t _ => State.pushResult_readsOnly t _) _ _)

theorem fillRange_planesOnly (c : Colour) (ls le : Nat) (s : State) : PlanesOnly s (fillRange c ls le s) :=
  overRange_rel PlanesOnly.refl PlanesOnly.trans (fun f t => pixelWrite_planesOnly f c t)
    (fun k t => byteWrite_planesOnly k _ t) ls le s

theorem setRange_planesOnly (data : List Byte) (ls le : Nat) (s : State) : PlanesOnly s (setRange data ls le s) :=
  overRange_rel PlanesOnly.refl PlanesOnly.trans (fun f t => pixelWrite_planesOnly f _ t)
    (fun k t => byteWrite_planesOnly k _ t) ls le s

theorem getRange_readsOnly (ls le : Nat) (s : State) : ReadsOnly s (getRange ls le s) :=
  overRange_rel ReadsOnly.refl ReadsOnly.trans pushPixel_readsOnly pushByte_readsOnly ls le s

/-! ### What lands in the planes -/

/-- A primitive that visits the four planes once, each step writing one byte of its plane. -/
theorem forPlanes_planeByte {step : State → Plane → State} {pos : Nat} {g : State → Plane → Byte}
    (only : ∀ t p, PlanesOnly t (step t p))
    (wf : ∀ t p, t.canonical → (step t p).canonical)
    (byte : ∀ t p, t.hazard = false → t.canonical → ∀ r x,
      (step t p).planeByte r x = if r = p ∧ x = pos then g t p else t.planeByte r x)
    (gOf : ∀ t u p, PlanesOnly t u → u.planeByte p pos = t.planeByte p pos → g u p = g t p)
    {s : State} (hz : s.hazard = false) (hc : s.canonical) (r : Plane) (x : Nat) :
    (Plane.all.foldl step s).planeByte r x = if x = pos then g s r else s.planeByte r x := by
  have hz' : ∀ {t}, PlanesOnly s t → t.hazard = false := by
    rintro t ⟨_, _, _, rfl⟩
    exact hz
  simp only [Plane.all, List.foldl_cons, List.foldl_nil]
  generalize h1 : step s .p1 = s1
  generalize h2 : step s1 .p2 = s2
  generalize h3 : step s2 .p3 = s3
  have o1 : PlanesOnly s s1 := h1 ▸ only s .p1
  have o2 : PlanesOnly s s2 := o1.trans (h2 ▸ only s1 .p2)
  have o3 : PlanesOnly s s3 := o2.trans (h3 ▸ only s2 .p3)
  have c1 : s1.canonical := h1 ▸ wf s .p1 hc
  have c2 : s2.canonical := h2 ▸ wf s1 .p2 c1
  have c3 : s3.canonical := h3 ▸ wf s2 .p3 c2
  have b1 : ∀ r x, s1.planeByte r x = if r = .p1 ∧ x = pos then g s .p1 else s.planeByte r x :=
    fun r x => h1 ▸ byte s .p1 hz hc r x
  have b2 : ∀ r x, s2.planeByte r x = if r = .p2 ∧ x = pos then g s1 .p2 else s1.planeByte r x :=
    fun r x => h2 ▸ byte s1 .p2 (hz' o1) c1 r x
  have b3 : ∀ r x, s3.planeByte r x = if r = .p3 ∧ x = pos then g s2 .p3 else s2.planeByte r x :=
    fun r x => h3 ▸ byte s2 .p3 (hz' o2) c2 r x
  have g2 : g s1 .p2 = g s .p2 := gOf s s1 .p2 o1 (by simp [b1])
  have g3 : g s2 .p3 = g s .p3 := gOf s s2 .p3 o2 (by simp [b2, b1])
  have g4 : g s3 .p4 = g s .p4 := gOf s s3 .p4 o3 (by simp [b3, b2, b1])
  rw [byte s3 .p4 (hz' o3) c3, b3, b2, b1, g2, g3, g4]
  by_cases hx : x = pos <;> cases r <;> simp [hx]

theorem pixelWrite_canonical {s : State} (h : s.canonical) (f : Nat) (c : Colour) : (pixelWrite f c s).canonical :=
  foldl_inv (P := State.canonical) (fun t p _ ht => State.canonical_planeWrite (s := t.planeRead p _) ht p _ _) h

theorem byteWrite_canonical {s : State} (h : s.canonical) (k : Nat) (d : Quad Byte) : (byteWrite k d s).canonical := by
  refine foldl_inv (P := State.canonical) (fun t p _ ht => ?_) h
  split
  · exact State.canonical_planeWrite ht p _ _
  · exact State.canonical_planeWrite (s := t.planeRead p k) ht p _ _

/-- PixelWrite: the masked combine in the pixel's byte of every plane, every other byte as before (41_datapath R465). -/
theorem pixelWrite_planeByte {s : State} (hz : s.hazard = false) (hc : s.canonical) (f : Nat) (c : Colour) (r : Plane)
    (x : Nat) :
    (pixelWrite f c s).planeByte r x =
      if x = f / 8 then mrmw s.dm (s.planeByte r (f / 8)) (bcastC c r) (0x80#8 >>> (f % 8)) else s.planeByte r x := by
  rw [pixelWrite_eq]
  refine forPlanes_planeByte (g := fun t p => mrmw t.dm (t.planeByte p (f / 8)) (bcastC c p) (0x80#8 >>> (f % 8)))
    (fun t p => (State.planeRead_planesOnly t p _).trans (State.planeWrite_planesOnly _ _ _ _))
    (fun t p ht => State.canonical_planeWrite (s := t.planeRead p _) ht p _ _)
    (fun t p htz ht r x => by
      rw [State.planeByte_planeWrite (s := t.planeRead p _) htz ht]
      simp)
    ?_ hz hc r x
  rintro t u p ⟨_, _, _, rfl⟩ hb
  simp only [hb]

/-- ByteWrite: the combine in the byte of every plane, every other byte as before (41_datapath R467). -/
theorem byteWrite_planeByte {s : State} (hz : s.hazard = false) (hc : s.canonical) (k : Nat) (d : Quad Byte) (r : Plane)
    (x : Nat) :
    (byteWrite k d s).planeByte r x =
      if x = k then combine s.dm (s.planeByte r k) (d.get r) else s.planeByte r x := by
  unfold byteWrite
  refine forPlanes_planeByte (g := fun t p => combine t.dm (t.planeByte p k) (d.get p)) (fun t p => ?_)
    (fun t p ht => ?_) (fun t p htz ht r x => ?_) ?_ hz hc r x
  · split
    · exact State.planeWrite_planesOnly _ _ _ _
    · exact (State.planeRead_planesOnly t p _).trans (State.planeWrite_planesOnly _ _ _ _)
  · split
    · exact State.canonical_planeWrite ht p _ _
    · exact State.canonical_planeWrite (s := t.planeRead p _) ht p _ _
  · split
    · rename_i hd
      rw [State.planeByte_planeWrite htz ht]
      simp [hd, combine]
    · rw [State.planeByte_planeWrite (s := t.planeRead p _) htz ht]
      simp
  · rintro t u p ⟨_, _, _, rfl⟩ hb
    simp only [hb]

/-- The reads leave every plane byte. -/
theorem ReadsOnly.planeByte {s t : State} (h : ReadsOnly s t) (p : Plane) (off : Nat) :
    t.planeByte p off = s.planeByte p off := by
  obtain ⟨_, _, rfl⟩ := h
  rfl

/-- Bit 7 - (f mod 8) is the only bit of a pixel's mask (41_datapath R451). -/
theorem pixelMask_getLsbD (f j : Nat) (hj : j < 8) : (0x80#8 >>> (f % 8)).getLsbD j = decide (j = 7 - f % 8) := by
  have : ∀ r < 8, ∀ i < 8, (0x80#8 >>> r).getLsbD i = decide (i = 7 - r) := by decide
  exact this _ (Nat.mod_lt _ (by decide)) j hj

end Sys2Proof.Machine
end

