-- ==== Sys2Proof/Laws/PerInstr.lean ====
section
/-!
SUPPORT. A family of statements made per instruction: the length of an instruction's encoding (30_encoding R316).
-/

namespace Sys2Proof.Laws.Length

open Sys2Proof

/-- A command's length in bytes, its selector counted (30_encoding R316). -/
def commandLength : Instr → Nat
  | .clrerr | .getcfg | .setdm _ => 1
  | .setgeom _ _ | .pset _ _ _ | .pget _ _ => 5
  | .rfill _ _ _ _ _ | .rget _ _ _ _ => 9
  | .rset _ _ _ _ data => 9 + data.length
  | .rdStatus | .wrCmd _ | .wrData _ | .rdData | .hpRd _ _ | .hpWr _ _ _ => 0

/-- An instruction's code: a command's bytes in R316's number, or one bus cycle. -/
def Statement (i : Instr) : Prop :=
  ∀ cfg : Config, match encode cfg i with
    | .command bytes => bytes.length = commandLength i ∧ 1 ≤ bytes.length
    | .cycle _ => commandLength i = 0

theorem clrerr : Statement .clrerr := fun _ => ⟨rfl, Nat.le_refl 1⟩
theorem getcfg : Statement .getcfg := fun _ => ⟨rfl, Nat.le_refl 1⟩
theorem setdm (m : DrawMode) : Statement (.setdm m) := fun _ => ⟨rfl, Nat.le_refl 1⟩
theorem setgeom (w h : Coord) : Statement (.setgeom w h) := fun _ => ⟨rfl, by simp⟩
theorem pset (c : Colour) (x y : Coord) : Statement (.pset c x y) := fun _ => ⟨rfl, by simp⟩
theorem pget (x y : Coord) : Statement (.pget x y) := fun _ => ⟨rfl, by simp⟩
theorem rfill (c : Colour) (x1 y1 x2 y2 : Coord) : Statement (.rfill c x1 y1 x2 y2) := fun _ => ⟨rfl, by simp⟩
theorem rset (x1 y1 x2 y2 : Coord) (data : List Byte) : Statement (.rset x1 y1 x2 y2 data) := fun _ =>
  ⟨by simp [rectBytes, coordBytes, commandLength]; omega, by simp⟩
theorem rget (x1 y1 x2 y2 : Coord) : Statement (.rget x1 y1 x2 y2) := fun _ => ⟨rfl, by simp⟩
theorem rdStatus : Statement .rdStatus := fun _ => rfl
theorem wrCmd (b : Byte) : Statement (.wrCmd b) := fun _ => rfl
theorem wrData (b : Byte) : Statement (.wrData b) := fun _ => rfl
theorem rdData : Statement .rdData := fun _ => rfl
theorem hpRd (p : Plane) (off : Nat) : Statement (.hpRd p off) := fun _ => rfl
theorem hpWr (p : Plane) (off : Nat) (v : Byte) : Statement (.hpWr p off v) := fun _ => rfl

end Sys2Proof.Laws.Length
end

