-- ==== Sys2Proof/Laws/Step.lean ====
section
/-!
SUPPORT. What a step can do, said once: the inversions of fetch, of step and of the bus operations, from which the
invariants follow.
-/

namespace Sys2Proof.Machine

/-- What the next step runs: the engine's pending command, or the host's first event. -/
theorem fetch_run {s u : State} {i : Instr} (h : fetch s = .run i u) :
    (s.engineMoves = true ∧ s.pendingCommand = some i ∧ u = s.popTurn) ∨
      (s.engineMoves = false ∧
        ((∃ c rest, s.bus = .cycle c :: rest ∧ decodeBus s.cfg c = .ok i ∧ u = s.popTurn.setBus rest) ∨
          ∃ rest, s.bus = .waitRdy :: rest ∧ i = .rdStatus ∧
            u = if s.mustWait then s.popTurn else s.popTurn.setBus rest)) := by
  unfold fetch at h
  split at h
  · rename_i hm
    unfold fetchEngine at h
    split at h
    · rename_i j hj
      cases h
      exact Or.inl ⟨hm, hj, rfl⟩
    · cases h
  · rename_i hm
    refine Or.inr ⟨by simpa using hm, ?_⟩
    unfold fetchHost at h
    split at h
    · cases h
    · rename_i c rest hb
      split at h
      · rename_i j hj
        cases h
        exact Or.inl ⟨c, rest, hb, hj, rfl⟩
      · cases h
    · rename_i rest hb
      cases h
      exact Or.inr ⟨rest, hb, rfl, rfl⟩
    · cases h

/-- When a step runs no instruction: nothing to do, or the reset input. -/
theorem fetch_goOn {s u : State} (h : fetch s = .goOn u) :
    s.engineMoves = false ∧
      ((s.bus = [] ∧ u = s.popTurn) ∨ ∃ rest, s.bus = .reset :: rest ∧ u = assertReset (s.popTurn.setBus rest)) := by
  unfold fetch at h
  split at h
  · unfold fetchEngine at h
    split at h <;> cases h
  · rename_i hm
    refine ⟨by simpa using hm, ?_⟩
    unfold fetchHost at h
    split at h
    · rename_i hb
      cases h
      exact Or.inl ⟨hb, rfl⟩
    · split at h <;> cases h
    · cases h
    · rename_i rest hb
      cases h
      exact Or.inr ⟨rest, hb, rfl⟩

/-- A step that answers a next state ran an instruction, or went on. -/
theorem step_next {s t : State} (h : step s = .next t) :
    (∃ i u, fetch s = .run i u ∧ exec i u = .next t) ∨ fetch s = .goOn t := by
  unfold step at h
  split at h
  · rename_i i u hf
    exact Or.inl ⟨i, u, hf, h⟩
  · rename_i u hf
    cases h
    exact Or.inr hf
  · cases h
  · cases h

/-- The pending command does not depend on whose turn it is. -/
@[simp] theorem pendingCommand_popTurn (s : State) : s.popTurn.pendingCommand = s.pendingCommand := rfl

/-- WR_CMD answers BUSY, or begins a command after a possible ABORT (40_sequencer R402). -/
theorem execWrCmd_next {b : Byte} {s t : State} (h : execWrCmd b s = .next t) :
    (s.phase = .exec ∧ t = raiseError .wrCmd .busy (notePoll .wrCmd s)) ∨
      (s.phase ≠ .exec ∧ ∃ u, t = beginCommand b u ∧
        (u = notePoll .wrCmd s ∨
          ((s.phase = .collect ∨ s.phase = .data) ∧ u = raiseError .wrCmd .abort (notePoll .wrCmd s)))) := by
  have hp : (notePoll .wrCmd s).phase = s.phase := by
    rcases notePoll_cases .wrCmd s with h | ⟨-, -, h⟩ <;> rw [h]
  simp only [execWrCmd, State.busyFlag, State.collFlag, hp] at h
  split at h
  · rename_i hb
    cases h
    exact Or.inl ⟨by simpa using hb, rfl⟩
  · rename_i hb
    cases h
    refine Or.inr ⟨by simpa using hb, _, rfl, ?_⟩
    split
    · rename_i hc
      exact Or.inr ⟨by simpa using hc, rfl⟩
    · exact Or.inl rfl

/-- Beginning a command: BADSEL, Exec for a command with no arguments, Collect for the others (40_sequencer R402). -/
theorem beginCommand_cases (b : Byte) (s : State) :
    (kindOf s.cfg.rgetSupported b = none ∧
        beginCommand b s = toIdle (raiseError .wrCmd .badSel ((clearProgress (s.setRq [])).setHazard false))) ∨
      ∃ k, kindOf s.cfg.rgetSupported b = some k ∧
        ((argCount k = 0 ∧ beginCommand b s = enterExec (((clearProgress (s.setRq [])).setHazard false).setSel b)) ∨
          (argCount k ≠ 0 ∧
            beginCommand b s = (((clearProgress (s.setRq [])).setHazard false).setSel b).setPhase .collect)) := by
  unfold beginCommand
  simp only [show ((clearProgress (s.setRq [])).setHazard false).cfg = s.cfg from rfl]
  cases hk : kindOf s.cfg.rgetSupported b with
  | none => exact Or.inl ⟨rfl, rfl⟩
  | some k =>
    refine Or.inr ⟨k, rfl, ?_⟩
    by_cases h0 : argCount k = 0
    · exact Or.inl ⟨h0, by simp [h0]⟩
    · exact Or.inr ⟨h0, by simp [h0]⟩

/-- WR_DATA by phase (40_sequencer R403). -/
theorem execWrData_next {b : Byte} {s t : State} (h : execWrData b s = .next t) :
    (s.phase = .exec ∧ t = raiseError .wrData .busy (notePoll .wrData s)) ∨
      (s.phase = .idle ∧ t = raiseError .wrData .xdata (notePoll .wrData s)) ∨
      (s.phase = .collect ∧ ∃ k u, kindOf s.cfg.rgetSupported s.sel = some k ∧ u = storeArg b (notePoll .wrData s) ∧
        t = if u.argc = argCount k then argsComplete k u else u) ∨
      (s.phase = .data ∧ ∃ u, u = storeData b (notePoll .wrData s) ∧
        t = if u.dcnt = u.dataCount then enterExec u else u) := by
  have hp : (notePoll .wrData s).phase = s.phase ∧ (notePoll .wrData s).cfg = s.cfg ∧
      (notePoll .wrData s).sel = s.sel := by
    rcases notePoll_cases .wrData s with h | ⟨-, -, h⟩ <;> rw [h] <;> exact ⟨rfl, rfl, rfl⟩
  simp only [execWrData, hp] at h
  cases hs : s.phase with
  | exec =>
    rw [hs] at h
    exact Or.inl ⟨rfl, by simpa using h.symm⟩
  | idle =>
    rw [hs] at h
    exact Or.inr (Or.inl ⟨rfl, by simpa using h.symm⟩)
  | collect =>
    rw [hs] at h
    simp only at h
    cases hk : kindOf s.cfg.rgetSupported s.sel with
    | none =>
      rw [hk] at h
      cases h
    | some k =>
      rw [hk] at h
      exact Or.inr (Or.inr (Or.inl ⟨rfl, k, _, rfl, rfl, by simpa using h.symm⟩))
  | data =>
    rw [hs] at h
    exact Or.inr (Or.inr (Or.inr ⟨rfl, _, rfl, by simpa using h.symm⟩))

/-- A host plane access that answers a next state: the port and the byte exist (40_sequencer R405, R406). -/
theorem hostAccess_next {off : Nat} {s u t : State} (h : hostAccess off s u = .next t) :
    s.cfg.hostPlanePort = true ∧ off < s.cfg.planeBytes ∧ t = u := by
  unfold hostAccess at h
  split at h
  · split at h
    · cases h
      exact ⟨by assumption, by assumption, rfl⟩
    · cases h
  · cases h

end Sys2Proof.Machine
end

