-- ==== Sys2Proof/Tests/Slice0.lean ====
section
/-!
SUPPORT. Tests: well-formedness, decoding of words written out from the spec's encodings, one step on small states with
results taken from 95_test_vectors, and a witness for the hypotheses of every obligation that has some.
-/

namespace Sys2Proof.Tests

open Sys2Proof Sys2Proof.Machine

/-- A test on the next state an outcome answers. -/
def onNext (o : Host.Outcome State Fault Refusal) (f : State → Bool) : Bool :=
  match o with
  | .next t => f t
  | .fault _ => false
  | .refused _ => false

/-- The machine after reset with a geometry set. -/
def geom (w h : Coord) : State := State.reset.setGeom w h

/-- Four planes of three bytes 0xAA each ("planes at AA"), with a geometry set. -/
def atAA (w h : Coord) : State :=
  (geom w h).setPlanes ⟨[(0, 0xAA), (1, 0xAA), (2, 0xAA)], [(0, 0xAA), (1, 0xAA), (2, 0xAA)],
    [(0, 0xAA), (1, 0xAA), (2, 0xAA)], [(0, 0xAA), (1, 0xAA), (2, 0xAA)]⟩

/-- Bytes `off` and `off + 1` of the four planes. -/
def twoBytes (s : State) (off : Nat) : List (Byte × Byte) :=
  Plane.all.map fun p => (s.planeByte p off, s.planeByte p (off + 1))

/-! ### Well-formedness: each check refuses an ill-formed term -/

theorem test_wf_rset : Instr.wf Config.default 640 400 (.rset 8 0 15 0 (List.replicate 8 0)) = true := by decide
theorem test_wf_rset_short : Instr.wf Config.default 640 400 (.rset 8 0 15 0 (List.replicate 7 0)) = false := by decide
theorem test_wf_rget : Instr.wf (Config.mk 32768 1 0 1 true ⟨0, 32768, 65536, 98304⟩ false) 640 400 (.rget 0 0 1 0) = false := by
  decide
theorem test_wf_hpRd_offset : Instr.wf Config.default 0 0 (.hpRd .p1 32768) = false := by decide
theorem test_wf_hpWr_port :
    Instr.wf (Config.mk 32768 1 0 1 false ⟨0, 32768, 65536, 98304⟩ true) 0 0 (.hpWr .p1 0 1) = false := by decide
theorem test_wf_hpRd_aliased :
    Instr.wf (Config.mk 32768 1 0 1 true ⟨0, 100, 65536, 98304⟩ true) 0 0 (.hpRd .p1 200) = false := by decide

/-! ### Decoding: bytes from 30_encoding R330 and the vectors of 95_test_vectors -/

theorem test_decode_clrerr : decodeTableWord 8 0b00000001 = some .clrerr := by decide
theorem test_decode_getcfg : decodeTableWord 8 0b00001000 = some .getcfg := by decide
theorem test_decode_setdm : decodeTableWord 8 0b00010011 = some (.setdm .xor) := by decide
theorem test_decode_setgeom : decodeTableWord 40 0x0190028020 = some (.setgeom 640 400) := by decide
theorem test_decode_pset : decodeTableWord 40 0x0002000D3A = some (.pset 10 13 2) := by decide
theorem test_decode_pget : decodeTableWord 40 0x0000000340 = some (.pget 3 0) := by decide
theorem test_decode_rfill : decodeTableWord 72 0x000100030000027C53 =
    some (.rfill 3 636 0 3 1) := by decide
theorem test_decode_rset :
    decode Config.default 640 400 (.command [0x60, 0x08, 0, 0, 0, 0x09, 0, 0, 0, 0xF1, 0x02]) =
      .ok (.rset 8 0 9 0 [0xF1, 0x02]) := by decide
theorem test_decode_rget : decodeTableWord 72 0x0001000A0000000570 = some (.rget 5 0 10 1) := by decide
theorem test_decode_reserved : decode Config.default 0 0 (.command [0x02]) = .error (.reservedSelector 0x02) := by decide
theorem test_decode_bus :
    decodeBus Config.default (.portRead 0) = .ok .rdStatus ∧ decodeBus Config.default (.portWrite 0 0x35) = .ok (.wrCmd 0x35) ∧
    decodeBus Config.default (.portWrite 1 5) = .ok (.wrData 5) ∧ decodeBus Config.default (.portRead 1) = .ok .rdData ∧
    decodeBus Config.default (.hostRead 65541) = .ok (.hpRd .p3 5) ∧
    decodeBus Config.default (.hostWrite 32768 0xAA) = .ok (.hpWr .p2 0 0xAA) := by decide
theorem test_decode_foreign : decodeBus Config.default (.portRead 2) = .error (.foreignPort 2) ∧
    decodeBus Config.default (.hostRead 131072) = .error (.foreignAddress 131072) := by decide

/-! ### Operands and datapath: 95_test_vectors V1, V4, V6 -/

theorem test_bitAddr : bitAddr 640 13 2 = (161, 0x04) ∧ bitAddr 640 639 399 = (31999, 0x01) ∧ bitAddr 16 10 1 = (3, 0x20) := by
  decide
theorem test_mrmw : mrmw .replace 0xAA 0xFF 0x40 = 0xEA ∧ mrmw .and 0xAA 0x0F 0xFF = 0x0A ∧ mrmw .or 0xAA 0x00 0x40 = 0xAA ∧
    mrmw .xor 0xAA 0xFF 0x80 = 0x2A := by decide
theorem test_pack : Plane.all.map (fun p => pack p fun k => BitVec.ofNat 4 (k + 1)) = [0xAA, 0x66, 0x1E, 0x01] := by decide
theorem test_split : split 1 14 = ⟨1, 8, 1, 1, 8, 15⟩ ∧ split 8 15 = ⟨8, 8, 1, 2, 16, 16⟩ ∧
    (split 0 0).tail = [0] ∧ (split 3 3).head = [3] ∧ (split 13 18).head = [13, 14, 15] := by decide

/-! ### One step each: 95_test_vectors V2, V3, V5, V7, V8, V9 -/

theorem test_clrerr : onNext (exec .clrerr (State.reset.setStatus true .oob)) (fun t => t.statusByte == 0x00) = true := by decide
theorem test_getcfg : onNext (exec .getcfg ((geom 640 400).setDm .xor))
    (fun t => t.rq == [0x03, 0x80, 0x02, 0x90, 0x01] && t.statusByte == 0x02) = true := by decide
theorem test_setdm : onNext (exec (.setdm .and) State.reset) (fun t => t.dm == .and) = true := by decide
theorem test_setgeom_top : onNext (exec (.setgeom 8 32768) State.reset) (fun t => t.gh == 32768) = true := by decide
theorem test_setgeom_over : onNext (exec (.setgeom 65528 5) State.reset) (fun t => t.statusByte == 0x68 && t.gw == 0) = true := by
  decide
theorem test_pset : onNext (exec (.pset 10 13 2) (geom 640 400))
    (fun t => Plane.all.map (fun p => t.planeByte p 161) == [0x00, 0x04, 0x00, 0x04] && t.trace.length == 8) = true := by decide
theorem test_pset_after_reset : onNext (exec (.pset 1 0 0) State.reset) (fun t => t.statusByte == 0x78) = true := by decide
theorem test_pget : onNext (exec (.pget 3 0) ((geom 640 400).setPlanes ⟨[(0, 0x10)], [], [(0, 0x10)], [(0, 0x10)]⟩))
    (fun t => t.rq == [0x0D]) = true := by decide
theorem test_rfill_and : onNext (exec (.rfill 6 2 0 13 0) ((atAA 640 400).setDm .and))
    (fun t => twoBytes t 0 == [(0x80, 0x02), (0xAA, 0xAA), (0xAA, 0xAA), (0x80, 0x02)]) = true := by decide +kernel
theorem test_rfill_byte : onNext (exec (.rfill 15 4 0 19 0) (geom 640 400))
    (fun t => twoBytes t 0 == List.replicate 4 (0x0F, 0xFF) && t.trace.length == 68) = true := by decide
theorem test_rset_xor : onNext (exec (.rset 8 0 15 0 [0xF1, 2, 3, 4, 5, 6, 7, 8]) ((atAA 640 400).setDm .xor))
    (fun t => twoBytes t 0 == [(0xAA, 0x00), (0xAA, 0xCC), (0xAA, 0xB4), (0xAA, 0xAB)] && t.trace.length == 8) = true := by decide
theorem test_rset_reversed : onNext (exec (.rset 5 0 4 0 []) (geom 640 400)) (fun t => t.statusByte == 0x88) = true := by decide
theorem test_rget : onNext (exec (.rget 6 0 9 0) (atAA 640 400)) (fun t => t.rq == [0x0F, 0x00, 0x0F, 0x00]) = true := by decide
theorem test_rdStatus : onNext (exec .rdStatus (State.reset.setStatus true .abort)) (fun t => t.replies == [0x38]) = true := by
  decide
theorem test_wrCmd : onNext (exec (.wrCmd 0x35) State.reset) (fun t => t.statusByte == 0x04 && t.sel == 0x35) = true := by decide
theorem test_wrCmd_abort : onNext (exec (.wrCmd 0x40) ((geom 640 400).setPhase .collect)) (fun t => t.statusByte == 0x3C) = true := by
  decide
theorem test_wrData_last : onNext
    (exec (.wrData 0) ((((geom 640 400).setSel 0x35).setPhase .collect).setArgs #v[3, 0, 0, 0, 0, 0, 0, 0] 3))
    (fun t => t.statusByte == 0x01 && t.pendingCommand == some (.pset 5 3 0)) = true := by decide
theorem test_wrData_idle : onNext (exec (.wrData 5) State.reset) (fun t => t.statusByte == 0x48) = true := by decide
theorem test_rdData : onNext (exec .rdData (State.reset.setRq [0x05])) (fun t => t.replies == [0x05] && t.statusByte == 0) = true := by
  decide
theorem test_rdData_underrun : onNext (exec .rdData State.reset) (fun t => t.replies == [0x00] && t.statusByte == 0x58) = true := by
  decide
theorem test_hpRd : onNext (exec (.hpRd .p2 1) (atAA 640 400)) (fun t => t.replies == [0xAA]) = true := by decide
theorem test_hpWr : onNext (exec (.hpWr .p2 1 0x00) (atAA 640 400))
    (fun t => twoBytes t 1 == [(0xAA, 0xAA), (0x00, 0xAA), (0xAA, 0xAA), (0xAA, 0xAA)]) = true := by decide
theorem test_step_first_after_reset : onNext (step (State.reset.withFetchWord 8 0x12)) (fun t => t.dm == .or) = true := by decide

/-! ### Witnesses for the obligations' hypotheses -/

/-- A state in the middle of things that meets planesOk, geomOk and the rest: 16 pixels by 2, planes at AA. -/
def small : State := atAA 16 2

theorem small_planesOk : small.planesOk := fun p => by cases p <;> decide
theorem small_geomOk : small.geomOk := Or.inr (by decide)

theorem small_inv : small.Inv where
  cfg := by decide
  planes := small_planesOk
  geom := small_geomOk
  status := show small.err = false ↔ small.ecode = .none by decide
  sequencer := show small.dbuf = [] ∧ small.dcnt = 0 ∧ small.argc ≤ 8 ∧ small.hazard = false by decide
  results := show small.rq.length ≤ 8 * small.cfg.planeBytes by decide

/-- Exec, its turn the host's. -/
def waiting (e : HostEvent) : State := ((State.reset.setPhase .exec).setSched [.host]).setBus [e]

theorem witness_ResetEventResets : (waiting .reset).engineMoves = false ∧ (waiting .reset).bus = [.reset] := by decide
theorem witness_PowerOnMeetsInvariant : Config.default.wf ∧
    ∀ p, memWf ((⟨[(32767, 1)], [], [], []⟩ : Quad PlaneMem).get p) ∧
      ∀ c ∈ (⟨[(32767, 1)], [], [], []⟩ : Quad PlaneMem).get p, c.1 < Config.default.planeBytes :=
  ⟨by decide, fun p => by cases p <;> decide⟩
theorem witness_EngineStepRunsPendingCommand :
    (State.reset.withFetchWord 8 0x13).engineMoves = true ∧
      (State.reset.withFetchWord 8 0x13).pendingCommand = some (.setdm .xor) := by decide
theorem witness_HostStepRunsFirstEvent_cycle :
    (waiting (.cycle (.portRead 0))).engineMoves = false ∧
      decodeBus (waiting (.cycle (.portRead 0))).cfg (.portRead 0) = .ok .rdStatus := by decide
theorem witness_HostStepRunsFirstEvent_wait : (waiting .waitRdy).engineMoves = false ∧ (waiting .waitRdy).bus = [.waitRdy] ∧
    State.reset.engineMoves = false ∧ State.reset.bus = [] := by decide
theorem witness_EngineWaitsFinitely : (waiting .waitRdy).phase = .exec ∧ (waiting .waitRdy).engineMoves = false ∧
    onNext (step (waiting .waitRdy)) (fun t => t.sched.length == 0) = true := by decide
theorem witness_DecodeOfEncode : Config.default.wf ∧ Instr.wf Config.default 16 2 (.hpRd .p4 32767) = true ∧
    Instr.wf Config.default 16 2 (.rset 15 1 15 1 [0xFF]) = true ∧ Instr.wf Config.default 16 2 (.rget 0 0 15 1) = true ∧
    Instr.wf Config.default 16 2 (.pset 15 65535 65535) = true := by decide
theorem witness_EncodeOfDecode :
    decode Config.default 16 2 (.command [0x60, 15, 0, 1, 0, 15, 0, 1, 0, 0xFF]) = .ok (.rset 15 1 15 1 [0xFF]) ∧
    decode Config.default 16 2 (.command [0x5F, 255, 255, 0, 0, 0, 0, 255, 255]) = .ok (.rfill 15 65535 0 0 65535) := by decide
theorem witness_ReservedSelectorsRaiseBadsel :
    small.phase ≠ .exec ∧ [0x00, 0x02, 0x07, 0x09, 0x0F, 0x14, 0x1F, 0x21, 0x2F, 0x41, 0x4F, 0x61, 0x6F, 0x71, 0xFF].all
      (fun b => kindOf small.cfg.rgetSupported b == none) = true ∧ kindOf false 0x70 = none := by decide
theorem witness_TransfersReachExec :
    small.phase = .idle ∧ Instr.wf small.cfg small.gw small.gh (.rset 15 0 0 1 [1, 2]) = true ∧
      checkOperands small (.rset 15 0 0 1 [1, 2]) = none ∧
      Instr.wf small.cfg small.gw small.gh (.rset 16 0 0 1 []) = true ∧
      checkOperands small (.rset 16 0 0 1 []) = some .oob ∧ checkOperands small (.rget 1 0 0 0) = some .badRange := by decide
theorem witness_SetgeomWritesOrRefuses :
    geomLegal 32768 8 1 = true ∧ geomLegal 32768 8 32768 = true ∧ geomLegal 32768 8 32769 = false ∧
      geomLegal 32768 0 25 = false ∧ geomLegal 32768 644 400 = false ∧ geomLegal 32768 640 0 = false := by decide
/-- PsetWritesOnePixel, PsetFollowsTruthTable, PgetPushesColour, DrawModesCompose: the last pixel. -/
theorem witness_pixel : small.planesOk ∧ small.geomOk ∧ small.hazard = false ∧ (15 : Coord).toNat < small.gw.toNat ∧
    (1 : Coord).toNat < small.gh.toNat ∧ onNext (exec (.pset 9 15 1) small) (fun _ => true) = true :=
  ⟨small_planesOk, small_geomOk, by decide, by decide, by decide, by decide⟩
theorem witness_PixelOutOfBoundsRaisesOob :
    ¬((16 : Coord).toNat < small.gw.toNat ∧ (1 : Coord).toNat < small.gh.toNat) ∧
      ¬((15 : Coord).toNat < small.gw.toNat ∧ (2 : Coord).toNat < small.gh.toNat) := by decide
/-- RfillFillsRange, RsetWritesColours, RgetPushesColours, SetRangeReadsBack: a range that crosses a row, its first and last
pixel included. -/
theorem witness_range : small.planesOk ∧ small.geomOk ∧ small.hazard = false ∧ (15 : Coord).toNat < small.gw.toNat ∧
    (0 : Coord).toNat < small.gh.toNat ∧ (0 : Coord).toNat < small.gw.toNat ∧ (1 : Coord).toNat < small.gh.toNat ∧
    flat small.gw 15 0 ≤ flat small.gw 0 1 ∧
    ([0xF1, 0x02] : List Byte).length = flat small.gw 0 1 + 1 - flat small.gw 15 0 ∧
    flat small.gw 0 1 = flat small.gw 15 0 + 1 :=
  ⟨small_planesOk, small_geomOk, by decide, by decide, by decide, by decide, by decide, by decide, by decide, by decide⟩
theorem witness_IllegalRangeIsRefused :
    ¬((16 : Coord).toNat < small.gw.toNat ∧ (0 : Coord).toNat < small.gh.toNat ∧ (0 : Coord).toNat < small.gw.toNat ∧
        (0 : Coord).toNat < small.gh.toNat) ∧
      flat small.gw 0 0 < flat small.gw 1 0 := by decide
theorem witness_IllegalRsetIsRefused : rangeCheck small.gw small.gh 1 0 0 0 = some .badRange ∧
    rangeCheck small.gw small.gh 0 0 0 0 = none ∧
    ([] : List Byte).length ≠ flat small.gw 0 0 + 1 - flat small.gw 0 0 := by decide
/-- BytePathEqualsPixelPath and RangeAccessCounts: one pixel, and a range with head, interior and tail. -/
theorem witness_paths : (∀ p, memWf (small.planes.get p)) ∧ small.hazard = false ∧ 5 ≤ 5 ∧ 5 ≤ 20 :=
  ⟨fun p => (small_planesOk p).1, by decide, by decide, by decide⟩
theorem witness_WholeScreenFillIsBytes : small.planesOk ∧ geomLegal small.cfg.planeBytes small.gw small.gh = true ∧
    small.hazard = false ∧ small.dm = .replace := ⟨small_planesOk, by decide, by decide, by decide⟩
theorem witness_XorFillTwiceRestores : (small.setDm .xor).planesOk ∧ (small.setDm .xor).geomOk ∧
    rangeCheck small.gw small.gh 3 0 12 0 = none ∧
    onNext (issue [.rfill 5 3 0 12 0, .rfill 5 3 0 12 0] (small.setDm .xor)) (fun _ => true) = true :=
  ⟨small_planesOk, small_geomOk, by decide, by decide +kernel⟩
theorem witness_HazardousWritesStayInRange : (small.setHazard true).planesOk ∧ (small.setHazard true).geomOk ∧
    (small.setHazard true).hazard = true ∧ flat small.gw 3 0 ≤ flat small.gw 12 1 :=
  ⟨small_planesOk, small_geomOk, by decide, by decide⟩
theorem witness_FlatAddressAgrees : (16 : Coord).toNat % 8 = 0 ∧ (15 : Coord).toNat < (16 : Coord).toNat := by decide
theorem witness_AddressesStayInBounds : geomLegal 32768 65528 4 = true ∧ (65527 : Coord).toNat < (65528 : Coord).toNat ∧
    (3 : Coord).toNat < (4 : Coord).toNat := by decide
theorem witness_MrmwActsBitwise : 7 < 8 ∧ (0x80 : Byte).getLsbD 7 = true ∧ (0x00 : Byte).getLsbD 7 = false := by decide
theorem witness_CommandsStayOnScreen : small.planesOk ∧ small.geomOk ∧ isCommand (.rfill 9 0 0 15 1) = true ∧
    stride small.gw * small.gh.toNat ≤ 4 ∧ onNext (exec (.rfill 9 0 0 15 1) small) (fun _ => true) = true :=
  ⟨small_planesOk, small_geomOk, by decide, by decide, by decide⟩
theorem witness_WrCmdBeginsCommand : (small.setPhase .exec).phase = .exec ∧ (small.setPhase .data).phase = .data ∧
    small.pollDue = false ∧ kindOf small.cfg.rgetSupported 0x5F = some .rfill ∧ kindOf small.cfg.rgetSupported 0x14 = none := by
  decide
theorem witness_WrCmdBeginsCommand_count : argCount .rfill ≠ 0 ∧ argCount .clrerr = 0 ∧
    kindOf small.cfg.rgetSupported 0x01 = some .clrerr := by decide
/-- WR_DATA in Exec and in Idle, and in Collect the byte before the last one. -/
theorem witness_WrDataFeedsCommand :
    (small.setPhase .exec).phase = .exec ∧ small.phase = .idle ∧ small.pollDue = false ∧ 6 + 1 ≠ argCount .rset := by decide
/-- An RSET's and an RGET's last argument byte, with a legal and with an illegal range. -/
theorem witness_WrDataFeedsCommand_last :
    let s := ((small.setSel 0x60).setPhase .collect).setArgs #v[0, 0, 0, 0, 1, 0, 0, 0] 7
    let t := ((small.setSel 0x60).setPhase .collect).setArgs #v[2, 0, 0, 0, 1, 0, 0, 0] 7
    s.pollDue = false ∧ s.argc < 8 ∧ s.argc + 1 = argCount .rset ∧ kindOf s.cfg.rgetSupported s.sel = some .rset ∧
      validate .rset (s.setArgs (s.arg.set 7 0) 8) = none ∧ validate .rset (t.setArgs (t.arg.set 7 0) 8) = some .badRange ∧
      validate .rget (s.setArgs (s.arg.set 7 0) 8) = none := by decide
/-- The data byte before an RSET's last one, and the last one. -/
theorem witness_WrDataFeedsCommand_data :
    let s := (((small.setSel 0x60).setPhase .data).setArgs #v[0, 0, 0, 0, 1, 0, 0, 0] 8).setData [7] 1
    s.phase = .data ∧ s.pollDue = false ∧ s.dcnt + 1 = s.dataCount ∧ 0 + 1 ≠ s.dataCount := by decide
theorem witness_ValidateChecksOperands :
    (small.setArgs #v[15, 0, 1, 0, 0, 1, 2, 0] 8).operand 0 = 15 ∧ (small.setArgs #v[15, 0, 1, 0, 0, 1, 2, 0] 8).operand 1 = 1 ∧
      (small.setArgs #v[15, 0, 1, 0, 0, 1, 2, 0] 8).operand 2 = 256 ∧
      (small.setArgs #v[15, 0, 1, 0, 0, 1, 2, 0] 8).operand 3 = 2 := by decide
theorem witness_ErrorBlocksNothing : (.rdData : Instr) ≠ .rdStatus := by decide
/-- UnpackInvertsPack and SplitPartitionsRange: the last lane; a range of one pixel and one that fills a byte. -/
theorem witness_lanes : 7 < 8 ∧ 0 ≤ 0 ∧ 8 ≤ 15 := by decide
theorem witness_LateWriteIsRecorded : small.phase ≠ .exec ∧ (small.setPollDue true).pollDue = true := by decide
/-- PollIsDueAfterLastByte: a command that passes validation and one that fails it; after the second, WR_CMD is recorded. -/
theorem witness_PollIsDueAfterLastByte :
    small.phase = .idle ∧ Instr.wf small.cfg small.gw small.gh (.pget 15 1) = true ∧
      onNext (issue (transfers small.cfg (.pget 15 1)) small) (fun u => u.phase == .exec && u.pollDue) = true ∧
      Instr.wf small.cfg small.gw small.gh (.pget 16 1) = true ∧
      onNext (issue (transfers small.cfg (.pget 16 1) ++ [.wrCmd 0x01]) small)
        (fun u => u.phase == .exec && u.faults == [⟨.wrCmd, .unpolled⟩, ⟨.command .pget, .error .oob⟩]) = true := by decide
/-- A poll after a failed command, and none is due any more (70_reset_and_hazards R820). -/
theorem test_poll_after_rejected :
    onNext (issue (transfers small.cfg (.pget 16 1) ++ [.rdStatus, .wrCmd 0x01]) small)
      (fun u => u.faults == [⟨.command .pget, .error .oob⟩]) = true := by decide
theorem witness_RdDataPopsOrUnderruns : (small.setRq [1, 2]).rq = [1, 2] ∧ small.rq = [] := by decide
/-- HpRdReturnsByte and HpWrStoresByte: the last byte, in Idle and in another phase. -/
theorem witness_hostPlane : small.planesOk ∧ small.cfg.hostPlanePort = true ∧ 32767 < small.cfg.planeBytes ∧ small.phase = .idle ∧
    (small.setPhase .collect).phase ≠ .idle := ⟨small_planesOk, by decide, by decide, by decide, by decide⟩
theorem witness_HostPlanePortStops :
    (State.powerOn (Config.mk 32768 1 0 1 false ⟨0, 32768, 65536, 98304⟩ true) ⟨[], [], [], []⟩).cfg.hostPlanePort = false ∧
      small.cfg.hostPlanePort = true ∧ small.cfg.planeBytes ≤ 32768 := by decide
theorem witness_OnlyClrerrClearsErrors : (small.setStatus true .oob).err = true ∧
    onNext (exec (.wrData 0) (small.setStatus true .oob)) (fun _ => true) = true := by decide
/-- OnlyWritersChangePlanes and ControlRegisterWriters: an instruction that writes neither answers a next state. -/
theorem witness_writers : onNext (exec (.rget 0 0 15 1) small) (fun _ => true) = true ∧
    onNext (exec .getcfg small) (fun _ => true) = true := by decide
theorem witness_IdleSelAndArgUnobservable : small.phase = .idle ∧ isCommand (.wrCmd 0x30) = false := by decide
/-- StepKeepsInvariant and StepNeverFaults: an invariant state with something to do. -/
theorem witness_StepKeepsInvariant : small.Inv ∧ onNext (step (small.setBus [.cycle (.portWrite 0 0x30)]))
    (fun t => t.phase == .collect) = true := ⟨small_inv, by decide⟩
theorem witness_PseudoInstructionsExpand : (1 : Coord).toNat < (2 : Coord).toNat ∧ (1 : Coord) ≠ 2 := by decide

end Sys2Proof.Tests
end

/-!
PROOFS. The invariant of the machine: its parts, what each shared operation keeps of them, and its base case.
-/

namespace Sys2Proof.Machine

/-! ### The invariant in parts -/

/-- The invariant without what PHASE says of the sequencer's registers. -/
structure State.InvCore (s : State) : Prop where
  cfg : s.cfg.wf
  planes : s.planesOk
  geom : s.geomOk
  status : s.statusOk
  results : s.resultsOk

/-- The fields `State.InvCore` speaks of. -/
def State.coreFields (s : State) : Config × Quad PlaneMem × Coord × Coord × Bool × ErrCode × List Byte :=
  (s.cfg, s.planes, s.gw, s.gh, s.err, s.ecode, s.rq)

theorem State.Inv.core {s : State} (h : s.Inv) : s.InvCore := ⟨h.cfg, h.planes, h.geom, h.status, h.results⟩

theorem State.InvCore.inv {s : State} (h : s.InvCore) (hs : s.sequencerOk) : s.Inv :=
  ⟨h.cfg, h.planes, h.geom, h.status, hs, h.results⟩

theorem State.InvCore.congr {s t : State} (h : s.InvCore) (ht : t.coreFields = s.coreFields) : t.InvCore := by
  simp only [State.coreFields, Prod.mk.injEq] at ht
  obtain ⟨hcfg, hplanes, hgw, hgh, herr, hecode, hrq⟩ := ht
  obtain ⟨h1, h2, h3, h4, h5⟩ := h
  unfold State.planesOk at h2
  unfold State.geomOk at h3
  unfold State.statusOk at h4
  unfold State.resultsOk at h5
  rw [← hcfg] at h1 h2 h3 h5
  rw [← hplanes] at h2
  rw [← hgw, ← hgh] at h3
  rw [← herr, ← hecode] at h4
  rw [← hrq] at h5
  exact ⟨h1, h2, h3, h4, h5⟩

/-- The invariant speaks of the engine, the parameters, the hazard and the poll flag only. -/
theorem State.Inv.congr {s t : State} (h : s.Inv) (he : t.toEngine = s.toEngine) (hc : t.cfg = s.cfg)
    (hz : t.hazard = s.hazard) (hp : t.pollDue = s.pollDue) : t.Inv := by
  obtain ⟨e, c, _, _, _, _, _, _, z, p⟩ := s
  obtain ⟨e', c', _, _, _, _, _, _, z', p'⟩ := t
  simp only at he hc hz hp
  subst he hc hz hp
  exact ⟨h.cfg, h.planes, h.geom, h.status, h.sequencer, h.results⟩

/-! ### What each phase says of the sequencer's registers -/

theorem State.sequencerOk_idle {s : State} (h : s.phase = .idle) :
    s.sequencerOk ↔ s.dbuf = [] ∧ s.dcnt = 0 ∧ s.argc ≤ 8 ∧ s.hazard = false := by
  simp only [State.sequencerOk, h]

theorem State.sequencerOk_collect {s : State} (h : s.phase = .collect) :
    s.sequencerOk ↔ ∃ k, kindOf s.cfg.rgetSupported s.sel = some k ∧ s.argc < argCount k ∧ s.dbuf = [] ∧ s.dcnt = 0 ∧
      s.rq = [] := by
  simp only [State.sequencerOk, h]

theorem State.sequencerOk_data {s : State} (h : s.phase = .data) :
    s.sequencerOk ↔ kindOf s.cfg.rgetSupported s.sel = some .rset ∧ s.argc = 8 ∧ validate .rset s = none ∧
      s.dcnt = s.dbuf.length ∧ s.dcnt < s.dataCount ∧ s.rq = [] := by
  simp only [State.sequencerOk, h]

theorem State.sequencerOk_exec {s : State} (h : s.phase = .exec) :
    s.sequencerOk ↔ ∃ k, kindOf s.cfg.rgetSupported s.sel = some k ∧ s.argc = argCount k ∧ validate k s = none ∧
      s.dcnt = s.dbuf.length ∧ s.dcnt = (if k = .rset then s.dataCount else 0) ∧ s.rq = [] ∧ s.pollDue = true := by
  simp only [State.sequencerOk, h]

/-- Outside Idle the result queue is empty (10_state R135). -/
theorem State.Inv.rq_eq_nil {s : State} (h : s.Inv) (hp : s.phase ≠ .idle) : s.rq = [] := by
  have hs := h.sequencer
  cases hph : s.phase with
  | idle => exact absurd hph hp
  | collect =>
    obtain ⟨k, -, -, -, -, hrq⟩ := (State.sequencerOk_collect hph).mp hs
    exact hrq
  | data =>
    obtain ⟨-, -, -, -, -, hrq⟩ := (State.sequencerOk_data hph).mp hs
    exact hrq
  | exec =>
    obtain ⟨k, -, -, -, -, -, hrq, -⟩ := (State.sequencerOk_exec hph).mp hs
    exact hrq

/-! ### What the shared operations keep -/

theorem geomCheck_some {n : Nat} {w h : Coord} {e : ErrCode} (he : geomCheck n w h = some e) : e = .badGeom := by
  unfold geomCheck at he
  split at he <;> cases he
  rfl

theorem pixelCheck_some {gw gh x y : Coord} {e : ErrCode} (he : pixelCheck gw gh x y = some e) : e = .oob := by
  unfold pixelCheck at he
  split at he <;> cases he
  rfl

theorem rangeCheck_some {gw gh x1 y1 x2 y2 : Coord} {e : ErrCode} (he : rangeCheck gw gh x1 y1 x2 y2 = some e) :
    e = .badRange ∨ e = .oob := by
  unfold rangeCheck at he
  split at he
  · split at he <;> cases he
    exact Or.inl rfl
  · cases he
    exact Or.inr rfl

/-- Validation never answers the code NONE (40_sequencer R411). -/
theorem validate_ne_noneCode {k : Kind} {s : State} {e : ErrCode} (h : validate k s = some e) : e ≠ .none := by
  cases k with
  | clrerr | getcfg | setdm => cases h
  | setgeom => simp [geomCheck_some h]
  | pset | pget => simp [pixelCheck_some h]
  | rfill | rset | rget => rcases rangeCheck_some h with rfl | rfl <;> simp

/-- A raised error leaves ERR set and some code other than NONE latched (10_state R125). -/
theorem State.InvCore.raiseError {s : State} (h : s.InvCore) (op : Op) {c : ErrCode} (hc : c ≠ .none) :
    (raiseError op c s).InvCore where
  cfg := h.cfg
  planes := h.planes
  geom := h.geom
  status := by
    have hs : s.err = false ↔ s.ecode = .none := h.status
    have hlatched : (if s.err then s.ecode else c) ≠ .none := by
      split
      · rename_i he
        exact fun hn => by simp [hs.mpr hn] at he
      · exact hc
    exact iff_of_false Bool.noConfusion hlatched
  results := h.results

theorem State.Inv.raiseError {s : State} (h : s.Inv) (op : Op) {c : ErrCode} (hc : c ≠ .none) :
    (raiseError op c s).Inv :=
  (h.core.raiseError op hc).inv h.sequencer

/-- The hazard flag matters in Idle only, and whether a poll is due in Exec only. -/
theorem State.Inv.setFlags {s : State} (h : s.Inv) {z p : Bool} (hz : s.phase = .idle → z = s.hazard)
    (hp : s.phase = .exec → p = s.pollDue) : ((s.setHazard z).setPollDue p).Inv := by
  refine State.InvCore.inv (h.core.congr rfl) ?_
  have hs := h.sequencer
  cases hph : s.phase with
  | idle =>
    rw [hz hph]
    exact (State.sequencerOk_idle (s := (s.setHazard _).setPollDue p) hph).mpr ((State.sequencerOk_idle hph).mp hs)
  | collect =>
    exact (State.sequencerOk_collect (s := (s.setHazard z).setPollDue p) hph).mpr
      ((State.sequencerOk_collect hph).mp hs)
  | data =>
    exact (State.sequencerOk_data (s := (s.setHazard z).setPollDue p) hph).mpr ((State.sequencerOk_data hph).mp hs)
  | exec =>
    rw [hp hph]
    exact (State.sequencerOk_exec (s := (s.setHazard z).setPollDue _) hph).mpr ((State.sequencerOk_exec hph).mp hs)

/-- A late write's note touches the fault record and, outside Exec only, the poll flag. -/
theorem State.Inv.notePoll {s : State} (h : s.Inv) (op : Op) : (notePoll op s).Inv := by
  rcases notePoll_cases op s with hn | ⟨-, hp, hn⟩
  · rwa [hn]
  · rw [hn]
    exact State.Inv.setFlags (s := s.logFault op .unpolled) (h.congr rfl rfl rfl rfl) (fun _ => rfl)
      fun he => absurd he hp

/-- Noting a poll leaves the whole engine, the parameters, the host's events and the turns. -/
theorem notePoll_keeps (op : Op) (s : State) :
    (notePoll op s).toEngine = s.toEngine ∧ (notePoll op s).cfg = s.cfg ∧ (notePoll op s).bus = s.bus ∧
      (notePoll op s).sched = s.sched := by
  rcases notePoll_cases op s with h | ⟨-, -, h⟩ <;> rw [h] <;> exact ⟨rfl, rfl, rfl, rfl⟩

theorem notePoll_phase (op : Op) (s : State) : (notePoll op s).phase = s.phase :=
  congrArg Engine.phase (notePoll_keeps op s).1

theorem State.InvCore.setRq {s : State} (h : s.InvCore) {q : List Byte} (hq : q.length ≤ 8 * s.cfg.planeBytes) :
    (s.setRq q).InvCore :=
  ⟨h.cfg, h.planes, h.geom, h.status, hq⟩

/-- An Idle state with no progress: whatever the rest holds (10_state R131). -/
theorem State.InvCore.inv_of_idle {s : State} (h : s.InvCore) (hp : s.phase = .idle) (hd : s.dbuf = [])
    (hn : s.dcnt = 0) (ha : s.argc ≤ 8) (hz : s.hazard = false) : s.Inv :=
  h.inv ((State.sequencerOk_idle hp).mpr ⟨hd, hn, ha, hz⟩)

/-- The end of an Exec step leaves Idle with no progress (40_sequencer R415). -/
theorem State.InvCore.finish {s : State} (h : s.InvCore) : (finish s).Inv :=
  State.InvCore.inv_of_idle (h.congr rfl) rfl rfl rfl (Nat.zero_le 8) rfl

/-- Reset keeps the planes, and what it writes elsewhere meets the invariant (70_reset_and_hazards R800, R801). -/
theorem State.InvCore.assertReset {s : State} (h : s.InvCore) : (assertReset s).Inv :=
  State.InvCore.inv_of_idle
    ⟨h.cfg, h.planes, Or.inl ⟨rfl, rfl⟩, iff_of_true rfl rfl, Nat.zero_le _⟩ rfl rfl rfl (Nat.zero_le 8) rfl

/-! ### The base case -/

theorem powerOn_inv {cfg : Config} {init : Quad PlaneMem} (hc : cfg.wf)
    (hi : ∀ p, memWf (init.get p) ∧ ∀ c ∈ init.get p, c.1 < cfg.planeBytes) : (State.powerOn cfg init).Inv :=
  State.InvCore.inv_of_idle
    ⟨hc, hi, Or.inl ⟨rfl, rfl⟩, iff_of_true rfl rfl, Nat.zero_le _⟩ rfl rfl rfl (Nat.zero_le 8) rfl

/-- Settles O3: the phase at power-on is Idle, and empty planes are canonical. -/
theorem powerOnMeetsInvariant : Obligations.PowerOnMeetsInvariant := by
  refine ⟨fun cfg init => powerOn_inv, powerOn_inv (by decide) fun p => ?_⟩
  cases p <;> exact ⟨⟨List.Pairwise.nil, nofun⟩, nofun⟩

end Sys2Proof.Machine

/-!
PROOFS. The six bus operations keep the invariant (40_sequencer R401-R406).
-/

namespace Sys2Proof.Machine

/-! ### Planes whose bytes all exist -/

/-- Every plane is canonical and lists offsets below `n` only: `State.planesOk` with its bound made a parameter. -/
def State.planesWithin (n : Nat) (s : State) : Prop := ∀ p, memWf (s.planes.get p) ∧ ∀ c ∈ s.planes.get p, c.1 < n

theorem State.planesWithin_putByte {n off : Nat} {s : State} (h : s.planesWithin n) (ho : off < n) (p : Plane)
    (v : Byte) : (s.putByte p off v).planesWithin n := by
  intro r
  refine ⟨State.canonical_putByte (fun q => (h q).1) p off v r, ?_⟩
  rw [State.putByte, State.setPlanes_planes, Quad.get_set]
  split
  · exact forall_mem_memWrite v (h p).2 ho
  · exact (h r).2

theorem State.planesWithin_planeWrite {n off : Nat} {s : State} (h : s.planesWithin n) (ho : off < n) (p : Plane)
    (v : Byte) : (s.planeWrite p off v).planesWithin n := by
  unfold State.planeWrite
  split
  · exact State.planesWithin_putByte h ho p _
  · exact State.planesWithin_putByte h ho p v

/-- Storing a byte that exists, outside the datapath, keeps the invariant. -/
theorem State.Inv.putByte {s : State} (h : s.Inv) {off : Nat} (ho : off < s.cfg.planeBytes) (p : Plane) (v : Byte) :
    (s.putByte p off v).Inv :=
  ⟨h.cfg, State.planesWithin_putByte h.planes ho p v, h.geom, h.status, h.sequencer, h.results⟩

/-! ### The bus operations that touch no command -/

theorem execRdStatus_inv {s t : State} (h : s.Inv) (hx : execRdStatus s = .next t) : t.Inv := by
  unfold execRdStatus at hx
  cases hx
  refine State.Inv.congr (s := if s.busyFlag then s else s.setPollDue false) ?_ rfl rfl rfl rfl
  split
  · exact h
  · rename_i hb
    exact h.setFlags (fun _ => rfl) fun he => absurd (by simp [State.busyFlag, he]) hb

theorem execRdData_inv {s t : State} (h : s.Inv) (hx : execRdData s = .next t) : t.Inv := by
  unfold execRdData at hx
  split at hx
  · rename_i b rest hq
    cases hx
    have hidle : s.phase = .idle := by
      by_contra hp
      rw [h.rq_eq_nil hp] at hq
      cases hq
    have hlen : rest.length ≤ 8 * s.cfg.planeBytes := by
      have hr : s.rq.length ≤ 8 * s.cfg.planeBytes := h.results
      rw [hq, List.length_cons] at hr
      omega
    have hpop : (s.setRq rest).Inv :=
      (h.core.setRq hlen).inv
        ((State.sequencerOk_idle (s := s.setRq rest) hidle).mpr ((State.sequencerOk_idle hidle).mp h.sequencer))
    exact hpop.congr rfl rfl rfl rfl
  · cases hx
    exact (h.raiseError .rdData (by decide)).congr rfl rfl rfl rfl

theorem execHpRd_inv {p : Plane} {off : Nat} {s t : State} (h : s.Inv) (hx : execHpRd p off s = .next t) : t.Inv := by
  obtain ⟨-, -, rfl⟩ := hostAccess_next hx
  split
  · exact h.congr rfl rfl rfl rfl
  · exact h.congr rfl rfl rfl rfl

theorem execHpWr_inv {p : Plane} {off : Nat} {v : Byte} {s t : State} (h : s.Inv) (hx : execHpWr p off v s = .next t) :
    t.Inv := by
  obtain ⟨-, ho, rfl⟩ := hostAccess_next hx
  split
  · exact h.putByte ho p v
  · rename_i hp
    exact ((h.putByte ho p _).setFlags (fun hi => absurd hi hp) fun _ => rfl).congr rfl rfl rfl rfl

/-! ### Writing a selector -/

/-- A command without arguments has nothing to validate, and is no RSET (40_sequencer R400, R411). -/
theorem validate_of_argCount_zero {k : Kind} (h : argCount k = 0) (s : State) : validate k s = none ∧ k ≠ .rset := by
  cases k with
  | clrerr | getcfg | setdm => exact ⟨rfl, by decide⟩
  | setgeom | pset | pget | rfill | rset | rget => cases h

theorem beginCommand_inv {b : Byte} {s : State} (h : s.InvCore) : (beginCommand b s).Inv := by
  have hclear : ((clearProgress (s.setRq [])).setHazard false).InvCore := (h.setRq (Nat.zero_le _)).congr rfl
  rcases beginCommand_cases b s with ⟨-, hb⟩ | ⟨k, hk, ⟨h0, hb⟩ | ⟨h0, hb⟩⟩
  · rw [hb]
    exact State.InvCore.inv_of_idle ((hclear.raiseError .wrCmd (c := .badSel) (by decide)).congr rfl) rfl rfl rfl
      (Nat.zero_le 8) rfl
  · rw [hb]
    obtain ⟨hv, hr⟩ := validate_of_argCount_zero h0
      (enterExec (((clearProgress (s.setRq [])).setHazard false).setSel b))
    exact State.InvCore.inv (hclear.congr rfl)
      ((State.sequencerOk_exec rfl).mpr ⟨k, hk, h0.symm, hv, rfl, (if_neg hr).symm, rfl, rfl⟩)
  · rw [hb]
    exact State.InvCore.inv (hclear.congr rfl)
      ((State.sequencerOk_collect rfl).mpr ⟨k, hk, Nat.pos_of_ne_zero h0, rfl, rfl, rfl⟩)

theorem execWrCmd_inv {b : Byte} {s t : State} (h : s.Inv) (hx : execWrCmd b s = .next t) : t.Inv := by
  have hn := h.notePoll .wrCmd
  rcases execWrCmd_next hx with ⟨-, rfl⟩ | ⟨-, u, rfl, rfl | ⟨-, rfl⟩⟩
  · exact hn.raiseError .wrCmd (by decide)
  · exact beginCommand_inv hn.core
  · exact beginCommand_inv (hn.raiseError .wrCmd (by decide)).core

/-! ### Writing an argument or a data byte -/

theorem argCount_le (k : Kind) : argCount k ≤ 8 := by cases k <;> decide

/-- The last argument byte: an error and Idle, RSET's data phase, or Exec (40_sequencer R410). -/
theorem argsComplete_inv {k : Kind} {s : State} (h : s.InvCore) (hk : kindOf s.cfg.rgetSupported s.sel = some k)
    (ha : s.argc = argCount k) (hd : s.dbuf = []) (hn : s.dcnt = 0) (hq : s.rq = []) : (argsComplete k s).Inv := by
  rcases argsComplete_cases k s with ⟨e, hv, hs⟩ | ⟨hv, rfl, hne, hs⟩ | ⟨hv, hz, hs⟩
  · rw [hs]
    exact State.InvCore.inv_of_idle ((h.raiseError (.command k) (validate_ne_noneCode hv)).congr rfl) rfl hd hn
      (ha.trans_le (argCount_le k)) rfl
  · rw [hs]
    exact State.InvCore.inv (h.congr rfl) ((State.sequencerOk_data rfl).mpr
      ⟨hk, ha, hv, by simp [hn, hd], hn.trans_lt (Nat.pos_of_ne_zero hne), hq⟩)
  · rw [hs]
    refine State.InvCore.inv (h.congr rfl) ((State.sequencerOk_exec rfl).mpr
      ⟨k, hk, ha, hv, by simp [enterExec, hn, hd], ?_, hq, rfl⟩)
    split
    · rename_i hr
      exact hn.trans (hz hr).symm
    · exact hn

theorem collectByte_inv {b : Byte} {k : Kind} {s : State} (h : s.Inv) (hp : s.phase = .collect)
    (hk : kindOf s.cfg.rgetSupported s.sel = some k) :
    (if (storeArg b s).argc = argCount k then argsComplete k (storeArg b s) else storeArg b s).Inv := by
  obtain ⟨j, hj, ha, hd, hn, hq⟩ := (State.sequencerOk_collect hp).mp h.sequencer
  obtain rfl : k = j := Option.some.inj (hk.symm.trans hj)
  split
  · rename_i hlast
    exact argsComplete_inv (h.core.congr rfl) hk hlast hd hn hq
  · rename_i hmore
    exact State.InvCore.inv (h.core.congr rfl)
      ((State.sequencerOk_collect (s := storeArg b s) hp).mpr ⟨k, hk, Nat.lt_of_le_of_ne ha hmore, hd, hn, hq⟩)

theorem dataByte_inv {b : Byte} {s : State} (h : s.Inv) (hp : s.phase = .data) :
    (if (storeData b s).dcnt = (storeData b s).dataCount then enterExec (storeData b s) else storeData b s).Inv := by
  obtain ⟨hk, ha, hv, hn, hlt, hq⟩ := (State.sequencerOk_data hp).mp h.sequencer
  have hlen : (storeData b s).dcnt = (storeData b s).dbuf.length := by simp [storeData, hn]
  split
  · rename_i hlast
    exact State.InvCore.inv (h.core.congr rfl)
      ((State.sequencerOk_exec rfl).mpr ⟨.rset, hk, ha, hv, hlen, hlast, hq, rfl⟩)
  · rename_i hmore
    exact State.InvCore.inv (h.core.congr rfl)
      ((State.sequencerOk_data (s := storeData b s) hp).mpr ⟨hk, ha, hv, hlen, Nat.lt_of_le_of_ne hlt hmore, hq⟩)

theorem execWrData_inv {b : Byte} {s t : State} (h : s.Inv) (hx : execWrData b s = .next t) : t.Inv := by
  have hn := h.notePoll .wrData
  obtain ⟨he, hc, -⟩ := notePoll_keeps .wrData s
  have hsel : (notePoll .wrData s).sel = s.sel := congrArg Engine.sel he
  rcases execWrData_next hx with ⟨-, rfl⟩ | ⟨-, rfl⟩ | ⟨hp, k, u, hk, rfl, rfl⟩ | ⟨hp, u, rfl, rfl⟩
  · exact hn.raiseError .wrData (by decide)
  · exact hn.raiseError .wrData (by decide)
  · exact collectByte_inv hn ((notePoll_phase .wrData s).trans hp) (by rwa [hc, hsel])
  · exact dataByte_inv hn ((notePoll_phase .wrData s).trans hp)

/-- Every bus operation keeps the invariant. -/
theorem exec_busOperation_inv {i : Instr} {s t : State} (h : s.Inv) (hi : isCommand i = false)
    (hx : exec i s = .next t) : t.Inv := by
  cases i with
  | rdStatus => exact execRdStatus_inv h hx
  | wrCmd b => exact execWrCmd_inv h hx
  | wrData b => exact execWrData_inv h hx
  | rdData => exact execRdData_inv h hx
  | hpRd p off => exact execHpRd_inv h hx
  | hpWr p off v => exact execHpWr_inv h hx
  | clrerr | getcfg | setdm | setgeom | pset | pget | rfill | rset | rget => cases hi

end Sys2Proof.Machine

/-!
PROOFS. The engine's Exec step keeps the invariant: the command that SEL, ARG and DBUF hold, the bytes a command's
effect can touch, the results it can push; and with them the step of the whole machine.
-/

namespace Sys2Proof.Machine

/-! ### The pending command -/

/-- The command of a kind whose operands SEL, ARG and DBUF hold (10_state R130, 30_encoding R306, R307, R310). -/
def State.commandOf (s : State) : Kind → Instr
  | .clrerr => .clrerr
  | .getcfg => .getcfg
  | .setdm => .setdm (DrawMode.ofBits (s.sel.setWidth 2))
  | .setgeom => .setgeom (s.operand 0) (s.operand 1)
  | .pset => .pset (s.sel.setWidth 4) (s.operand 0) (s.operand 1)
  | .pget => .pget (s.operand 0) (s.operand 1)
  | .rfill => .rfill (s.sel.setWidth 4) (s.operand 0) (s.operand 1) (s.operand 2) (s.operand 3)
  | .rset => .rset (s.operand 0) (s.operand 1) (s.operand 2) (s.operand 3) s.dbuf
  | .rget => .rget (s.operand 0) (s.operand 1) (s.operand 2) (s.operand 3)

theorem isCommand_commandOf (s : State) (k : Kind) : isCommand (s.commandOf k) = true := by cases k <;> rfl

/-- A command's own check of its operands is its validation (40_sequencer R411). -/
theorem checkOperands_commandOf (s : State) (k : Kind) : checkOperands s (s.commandOf k) = validate k s := by
  cases k <;> rfl

/-- The argument bytes of a command's code give the operands of the argument registers. -/
theorem le16_commandBytes (s : State) {n i : Nat} (hn : n ≤ 8) (hi : 2 * i + 1 < n) :
    le16 ((s.arg.toList.take n ++ s.dbuf).getD (2 * i) 0) ((s.arg.toList.take n ++ s.dbuf).getD (2 * i + 1) 0) =
      s.operand i := by
  have hbyte : ∀ j, j < n → (s.arg.toList.take n ++ s.dbuf).getD j 0 = s.arg.toList.getD j 0 := fun j hj => by
    rw [List.getD_eq_getElem?_getD, List.getD_eq_getElem?_getD,
      List.getElem?_append_left (by simp; omega), List.getElem?_take_of_lt hj]
  rw [hbyte _ hi, hbyte _ (by omega)]
  rfl

/-- In Exec the registers hold exactly the command of SEL's kind (10_state R140, 40_sequencer R415). -/
theorem pendingCommand_eq_commandOf {s : State} {k : Kind} (hk : kindOf s.cfg.rgetSupported s.sel = some k)
    (hv : validate k s = none) (hd : s.dbuf.length = if k = .rset then s.dataCount else 0) :
    s.pendingCommand = some (s.commandOf k) := by
  have harg (i : Nat) (hi : 2 * i + 1 < argCount k) := le16_commandBytes s (argCount_le k) hi
  have hempty (hr : k ≠ .rset) : s.dbuf = [] := List.length_eq_zero_iff.mp (hd.trans (if_neg hr))
  have hlen : (s.arg.toList.take (argCount k)).length = argCount k := by simpa using argCount_le k
  have hrest : (s.arg.toList.take (argCount k) ++ s.dbuf).drop (argCount k) = s.dbuf :=
    List.drop_left' hlen
  have hfits : ¬(s.arg.toList.take (argCount k) ++ s.dbuf).length < argCount k := by
    rw [List.length_append, hlen]
    omega
  have hdecode : decodeCommand s.cfg.rgetSupported s.gw s.gh s.commandBytes = .ok (s.commandOf k, []) := by
    simp only [State.commandBytes, hk, decodeCommand, if_neg hfits, hrest]
    cases k with
    | clrerr | getcfg | setdm =>
      rw [hempty (by decide)]
      rfl
    | setgeom | pset | pget =>
      rw [harg 0 (by decide), harg 1 (by decide), hempty (by decide)]
      rfl
    | rfill | rget =>
      rw [harg 0 (by decide), harg 1 (by decide), harg 2 (by decide), harg 3 (by decide), hempty (by decide)]
      rfl
    | rset =>
      have hcount : rsetCount s.gw s.gh (s.operand 0) (s.operand 1) (s.operand 2) (s.operand 3) = s.dbuf.length :=
        (if_pos hv).trans hd.symm
      rw [harg 0 (by decide), harg 1 (by decide), harg 2 (by decide), harg 3 (by decide)]
      simp [hcount, State.commandOf]
  simp only [State.pendingCommand, decode, hdecode]

/-! ### The parts of a split range -/

@[simp] theorem mem_ascending {lo hi f : Nat} : f ∈ ascending lo hi ↔ lo ≤ f ∧ f < hi := by
  simp only [ascending, List.mem_range'_1]
  omega

@[simp] theorem length_ascending (lo hi : Nat) : (ascending lo hi).length = hi - lo := List.length_range'

/-- Split, by whether a byte boundary lies between the rounded ends (41_datapath R475). -/
theorem split_eq (ls le : Nat) :
    split ls le = if 8 * ((ls + 7) / 8) ≤ 8 * ((le + 1) / 8) then
      ⟨ls, 8 * ((ls + 7) / 8), 8 * ((ls + 7) / 8) / 8, 8 * ((le + 1) / 8) / 8, 8 * ((le + 1) / 8), le + 1⟩
    else ⟨ls, le + 1, 0, 0, le + 1, le + 1⟩ := rfl

/-- No part of a split range goes beyond the range's last pixel or its byte (41_datapath R476). -/
theorem split_le (ls le : Nat) :
    (∀ f, f ∈ (split ls le).head ∨ f ∈ (split ls le).tail → f ≤ le) ∧ ∀ k ∈ (split ls le).interior, k ≤ le / 8 := by
  simp only [Split.head, Split.tail, Split.interior, mem_ascending]
  rw [split_eq]
  split
  · exact ⟨fun f hf => by simp only at hf; omega, fun k hk => by simp only at hk; omega⟩
  · exact ⟨fun f hf => by simp only at hf; omega, fun k hk => by simp only at hk; omega⟩

/-- Head, interior and tail count every pixel of the range once (41_datapath R476). -/
theorem split_length {ls le : Nat} (h : ls ≤ le) :
    (split ls le).head.length + 8 * (split ls le).interior.length + (split ls le).tail.length = le + 1 - ls := by
  simp only [Split.head, Split.tail, Split.interior, length_ascending]
  rw [split_eq]
  split <;> simp only <;> omega

/-! ### What a command's effect does to the planes and to the result queue -/

theorem pixelWrite_planesWithin {n f : Nat} (c : Colour) {s : State} (h : s.planesWithin n) (hf : f / 8 < n) :
    (pixelWrite f c s).planesWithin n :=
  foldl_inv (P := State.planesWithin n)
    (fun t p _ ht => State.planesWithin_planeWrite (s := t.planeRead p _) ht hf p _) h

theorem byteWrite_planesWithin {n k : Nat} (d : Quad Byte) {s : State} (h : s.planesWithin n) (hk : k < n) :
    (byteWrite k d s).planesWithin n := by
  refine foldl_inv (P := State.planesWithin n) (fun t p _ ht => ?_) h
  split
  · exact State.planesWithin_planeWrite ht hk p _
  · exact State.planesWithin_planeWrite (s := t.planeRead p k) ht hk p _

/-- A walk whose last byte exists writes only bytes that exist. -/
theorem overRange_planesWithin {n ls le : Nat} (hle : le / 8 < n) {colour : Nat → Colour} {data : Nat → Quad Byte}
    {s : State} (h : s.planesWithin n) :
    (overRange ls le (fun f => pixelWrite f (colour f)) (fun k => byteWrite k (data k)) s).planesWithin n := by
  obtain ⟨hpixel, hbyte⟩ := split_le ls le
  exact overRange_inv (P := State.planesWithin n)
    (fun f t hf ht => pixelWrite_planesWithin _ ht ((Nat.div_le_div_right (hpixel f hf)).trans_lt hle))
    (fun k t hk ht => byteWrite_planesWithin _ ht ((hbyte k hk).trans_lt hle)) h

theorem foldl_rq_length {α : Type} {n : Nat} {step : State → α → State}
    (h : ∀ s a, (step s a).rq.length = s.rq.length + n) (l : List α) (s : State) :
    (l.foldl step s).rq.length = s.rq.length + n * l.length := by
  induction l generalizing s with
  | nil => rfl
  | cons a l ih =>
    rw [List.foldl_cons, ih, h, List.length_cons, Nat.mul_succ]
    omega

theorem pushPixel_rq_length (f : Nat) (s : State) : (pushPixel f s).rq.length = s.rq.length + 1 := List.length_append

theorem pushByte_rq_length (k : Nat) (s : State) : (pushByte k s).rq.length = s.rq.length + 8 :=
  foldl_rq_length (n := 1) (fun _ _ => List.length_append) (List.range 8) (readPlanes k s)

/-- RGET pushes one result byte for each pixel of its range (44_range R630). -/
theorem getRange_rq_length {ls le : Nat} (h : ls ≤ le) (s : State) :
    (getRange ls le s).rq.length = s.rq.length + (le + 1 - ls) := by
  rw [← split_length h, getRange, overRange, foldl_rq_length (fun t f => pushPixel_rq_length f t),
    foldl_rq_length (fun t k => pushByte_rq_length k t), foldl_rq_length (fun t f => pushPixel_rq_length f t)]
  omega

theorem State.InvCore.of_planesOnly {s t : State} (h : s.InvCore) (ht : PlanesOnly s t)
    (hp : t.planesWithin s.cfg.planeBytes) : t.InvCore := by
  obtain ⟨_, _, _, rfl⟩ := ht
  exact ⟨h.cfg, hp, h.geom, h.status, h.results⟩

theorem State.InvCore.of_readsOnly {s t : State} (h : s.InvCore) (ht : ReadsOnly s t)
    (hq : t.rq.length ≤ 8 * s.cfg.planeBytes) : t.InvCore := by
  obtain ⟨_, _, rfl⟩ := ht
  exact ⟨h.cfg, h.planes, h.geom, h.status, hq⟩

/-! ### The Exec step -/

/-- A pixel or range command past its validation: its last byte exists and its effect was performed. -/
theorem runCommand_none_next {k : Kind} {top : Nat} {effect : State → State} {s t : State}
    (h : runCommand k none top effect s = .next t) : top < s.cfg.planeBytes ∧ t = finish (effect s) := by
  rcases runCommand_next h with ⟨e, he, -⟩ | ⟨-, ht⟩
  · cases he
  · exact ht

/-- A geometry that passes SETGEOM's check is legal (42_config R530). -/
theorem geomCheck_none {n : Nat} {w h : Coord} (hc : geomCheck n w h = none) : geomLegal n w h = true := by
  unfold geomCheck at hc
  split at hc
  · assumption
  · cases hc

/-- A range that passes the range check is in order (44_range R600). -/
theorem rangeCheck_none_order {gw gh x1 y1 x2 y2 : Coord} (h : rangeCheck gw gh x1 y1 x2 y2 = none) :
    flat gw x1 y1 ≤ flat gw x2 y2 := by
  unfold rangeCheck at h
  split_ifs at h with _ horder
  exact Nat.le_of_not_lt horder

theorem execSetgeom_inv {w h : Coord} {s t : State} (hs : s.InvCore) (hv : geomCheck s.cfg.planeBytes w h = none)
    (hx : execSetgeom w h s = .next t) : t.Inv := by
  rw [execSetgeom, hv] at hx
  cases hx
  have hgeom : (s.setGeom w h).InvCore := ⟨hs.cfg, hs.planes, Or.inr (geomCheck_none hv), hs.status, hs.results⟩
  exact hgeom.finish

theorem State.setRq_setRq (s : State) (q r : List Byte) : (s.setRq q).setRq r = s.setRq r := rfl

/-- GETCFG's effect is one write of the result queue, five bytes longer (42_config R510). -/
theorem execGetcfg_eq (s : State) :
    execGetcfg s = .next (finish (s.setRq (s.rq ++
      [(DrawMode.bits s.dm).setWidth 8, loByte s.gw, hiByte s.gw, loByte s.gh, hiByte s.gh]))) := by
  simp [execGetcfg, State.pushResult, State.setRq_setRq]

theorem execGetcfg_inv {s t : State} (h : s.InvCore) (hq : s.rq = []) (hx : execGetcfg s = .next t) : t.Inv := by
  rw [execGetcfg_eq] at hx
  cases hx
  have hbytes : 32000 ≤ s.cfg.planeBytes := h.cfg.1
  refine State.InvCore.finish (h.setRq ?_)
  simp only [hq, List.nil_append, List.length_cons, List.length_nil]
  omega

theorem execPset_inv {c : Colour} {x y : Coord} {s t : State} (h : s.InvCore) (hv : pixelCheck s.gw s.gh x y = none)
    (hx : execPset c x y s = .next t) : t.Inv := by
  rw [execPset, hv] at hx
  obtain ⟨htop, rfl⟩ := runCommand_none_next hx
  exact (h.of_planesOnly (pixelWrite_planesOnly _ c s) (pixelWrite_planesWithin c h.planes htop)).finish

theorem execPget_inv {x y : Coord} {s t : State} (h : s.InvCore) (hq : s.rq = []) (hv : pixelCheck s.gw s.gh x y = none)
    (hx : execPget x y s = .next t) : t.Inv := by
  rw [execPget, hv] at hx
  obtain ⟨htop, rfl⟩ := runCommand_none_next hx
  refine (h.of_readsOnly (pushPixel_readsOnly _ s) ?_).finish
  rw [pushPixel_rq_length, hq, List.length_nil]
  omega

theorem execRfill_inv {c : Colour} {x1 y1 x2 y2 : Coord} {s t : State} (h : s.InvCore)
    (hv : rangeCheck s.gw s.gh x1 y1 x2 y2 = none) (hx : execRfill c x1 y1 x2 y2 s = .next t) : t.Inv := by
  rw [execRfill, hv] at hx
  obtain ⟨htop, rfl⟩ := runCommand_none_next hx
  exact (h.of_planesOnly (fillRange_planesOnly c _ _ s) (overRange_planesWithin htop h.planes)).finish

theorem execRset_inv {x1 y1 x2 y2 : Coord} {data : List Byte} {s t : State} (h : s.InvCore)
    (hv : rangeCheck s.gw s.gh x1 y1 x2 y2 = none) (hx : execRset x1 y1 x2 y2 data s = .next t) : t.Inv := by
  simp only [execRset, hv] at hx
  split at hx
  · obtain ⟨htop, rfl⟩ := runCommand_none_next hx
    exact (h.of_planesOnly (setRange_planesOnly data _ _ s) (overRange_planesWithin htop h.planes)).finish
  · cases hx

theorem execRget_inv {x1 y1 x2 y2 : Coord} {s t : State} (h : s.InvCore) (hq : s.rq = [])
    (hv : rangeCheck s.gw s.gh x1 y1 x2 y2 = none) (hx : execRget x1 y1 x2 y2 s = .next t) : t.Inv := by
  rw [execRget, hv] at hx
  obtain ⟨htop, rfl⟩ := runCommand_none_next hx
  refine (h.of_readsOnly (getRange_readsOnly _ _ s) ?_).finish
  rw [getRange_rq_length (rangeCheck_none_order hv), hq, List.length_nil]
  omega

/-- A command past its validation, on an empty result queue, keeps the invariant. -/
theorem exec_command_inv {i : Instr} {s t : State} (h : s.InvCore) (hq : s.rq = []) (hi : isCommand i = true)
    (hv : checkOperands s i = none) (hx : exec i s = .next t) : t.Inv := by
  cases i with
  | clrerr =>
    cases hx
    exact State.InvCore.finish ⟨h.cfg, h.planes, h.geom, iff_of_true rfl rfl, h.results⟩
  | getcfg => exact execGetcfg_inv h hq hx
  | setdm m =>
    cases hx
    exact State.InvCore.finish (h.congr rfl)
  | setgeom w h' => exact execSetgeom_inv h hv hx
  | pset c x y => exact execPset_inv h hv hx
  | pget x y => exact execPget_inv h hq hv hx
  | rfill c x1 y1 x2 y2 => exact execRfill_inv h hv hx
  | rset x1 y1 x2 y2 data => exact execRset_inv h hv hx
  | rget x1 y1 x2 y2 => exact execRget_inv h hq hv hx
  | rdStatus | wrCmd | wrData | rdData | hpRd | hpWr => cases hi

/-- In Exec the pending command is one whose validation passes. -/
theorem State.Inv.pendingCommand {s : State} (h : s.Inv) (hp : s.phase = .exec) :
    ∃ i, s.pendingCommand = some i ∧ isCommand i = true ∧ checkOperands s i = none := by
  obtain ⟨k, hk, -, hv, hn, hcount, -⟩ := (State.sequencerOk_exec hp).mp h.sequencer
  exact ⟨s.commandOf k, pendingCommand_eq_commandOf hk hv (hn.symm.trans hcount), isCommand_commandOf s k,
    (checkOperands_commandOf s k).trans hv⟩

theorem engineMoves_exec {s : State} (h : s.engineMoves = true) : s.phase = .exec := by
  simp only [State.engineMoves, Bool.and_eq_true, beq_iff_eq] at h
  exact h.1

/-- What a bus cycle decodes to is a bus operation, no command (40_sequencer R401-R406). -/
theorem isCommand_decodeBus {cfg : Config} {c : BusCycle} {i : Instr} (h : decodeBus cfg c = .ok i) :
    isCommand i = false := by
  cases c with
  | portRead a =>
    simp only [decodeBus] at h
    split_ifs at h <;> cases h <;> rfl
  | portWrite a v =>
    simp only [decodeBus] at h
    split_ifs at h <;> cases h <;> rfl
  | hostRead a =>
    simp only [decodeBus] at h
    cases hw : windowByte cfg a <;> rw [hw] at h <;> cases h
    rfl
  | hostWrite a v =>
    simp only [decodeBus] at h
    cases hw : windowByte cfg a <;> rw [hw] at h <;> cases h
    rfl

/-- The state an instruction is run on meets the invariant, and the instruction is a bus operation, or a command past
its validation on an empty result queue. -/
theorem fetch_run_inv {s u : State} {i : Instr} (h : s.Inv) (hf : fetch s = .run i u) :
    u.Inv ∧ (isCommand i = false ∨ (isCommand i = true ∧ u.rq = [] ∧ checkOperands u i = none)) := by
  rcases fetch_run hf with ⟨hm, hi, rfl⟩ | ⟨-, ⟨c, rest, -, hc, rfl⟩ | ⟨rest, -, rfl, rfl⟩⟩
  · have hp := engineMoves_exec hm
    obtain ⟨j, hj, hcommand, hv⟩ := h.pendingCommand hp
    obtain rfl : j = i := Option.some.inj (hj.symm.trans hi)
    refine ⟨h.congr rfl rfl rfl rfl, Or.inr ⟨hcommand, h.rq_eq_nil (by simp [hp]), ?_⟩⟩
    rw [← hv]
    cases j <;> rfl
  · exact ⟨h.congr rfl rfl rfl rfl, Or.inl (isCommand_decodeBus hc)⟩
  · refine ⟨?_, Or.inl rfl⟩
    split
    · exact h.congr rfl rfl rfl rfl
    · exact h.congr rfl rfl rfl rfl

theorem fetch_goOn_inv {s t : State} (h : s.Inv) (hf : fetch s = .goOn t) : t.Inv := by
  rcases fetch_goOn hf with ⟨-, ⟨-, rfl⟩ | ⟨rest, -, rfl⟩⟩
  · exact h.congr rfl rfl rfl rfl
  · exact State.InvCore.assertReset (h.core.congr rfl)

/-- Settles O55: the engine runs only commands that passed validation, the host only bus operations, and each keeps the
invariant; so do the reset input and an idle turn. -/
theorem stepKeepsInvariant : Obligations.StepKeepsInvariant := by
  intro s t h hs
  rcases step_next hs with ⟨i, u, hf, hx⟩ | hf
  · rcases fetch_run_inv h hf with ⟨hu, hi | ⟨hi, hq, hv⟩⟩
    · exact exec_busOperation_inv hu hi hx
    · exact exec_command_inv hu.core hq hi hv hx
  · exact fetch_goOn_inv h hf

end Sys2Proof.Machine

/-!
PROOFS. Who changes what: the frame of every instruction over the planes, the control registers, the parameters, the
host's events and the turns (10_state R103, R112, R119); and the bits of STATUS (10_state R120-R125).
-/

namespace Sys2Proof.Machine

/-! ### The frame of the shared operations -/

/-- The control registers, the parameters, the host's events and the turns. -/
def State.control (s : State) : DrawMode × Coord × Coord × Config × List HostEvent × List Agent :=
  (s.dm, s.gw, s.gh, s.cfg, s.bus, s.sched)

theorem State.control_eq_iff {s t : State} :
    t.control = s.control ↔
      t.dm = s.dm ∧ t.gw = s.gw ∧ t.gh = s.gh ∧ t.cfg = s.cfg ∧ t.bus = s.bus ∧ t.sched = s.sched := by
  simp only [State.control, Prod.mk.injEq]

/-- `t` has the planes and the control of `s`: what the transfers and the reads leave. -/
def SameStore (s t : State) : Prop := t.planes = s.planes ∧ t.control = s.control

theorem SameStore.refl (s : State) : SameStore s s := ⟨rfl, rfl⟩

theorem SameStore.trans {s t u : State} (h : SameStore s t) (h' : SameStore t u) : SameStore s u :=
  ⟨h'.1.trans h.1, h'.2.trans h.2⟩

theorem ReadsOnly.sameStore {s t : State} (h : ReadsOnly s t) : SameStore s t := by
  obtain ⟨_, _, rfl⟩ := h
  exact ⟨rfl, rfl⟩

theorem PlanesOnly.control_eq {s t : State} (h : PlanesOnly s t) : t.control = s.control := by
  obtain ⟨_, _, _, rfl⟩ := h
  rfl

theorem notePoll_sameStore (op : Op) (s : State) : SameStore s (notePoll op s) := by
  rcases notePoll_cases op s with h | ⟨-, -, h⟩ <;> rw [h] <;> exact ⟨rfl, rfl⟩

theorem beginCommand_sameStore (b : Byte) (s : State) : SameStore s (beginCommand b s) := by
  rcases beginCommand_cases b s with ⟨-, h⟩ | ⟨k, -, ⟨-, h⟩ | ⟨-, h⟩⟩ <;>
    simp [h, SameStore, State.control, clearProgress, toIdle, raiseError, enterExec]

theorem argsComplete_sameStore (k : Kind) (s : State) : SameStore s (argsComplete k s) := by
  rcases argsComplete_cases k s with ⟨e, -, h⟩ | ⟨-, -, -, h⟩ | ⟨-, -, h⟩ <;> rw [h] <;> exact ⟨rfl, rfl⟩

/-- A command's frame adds nothing to what its effect changes there. -/
theorem runCommand_control {k : Kind} {check : Option ErrCode} {top : Nat} {effect : State → State} {s t : State}
    (he : (effect s).control = s.control) (h : runCommand k check top effect s = .next t) : t.control = s.control := by
  rcases runCommand_next h with ⟨e, -, rfl⟩ | ⟨-, -, rfl⟩
  · rfl
  · exact he

theorem runCommand_sameStore {k : Kind} {check : Option ErrCode} {top : Nat} {effect : State → State} {s t : State}
    (he : SameStore s (effect s)) (h : runCommand k check top effect s = .next t) : SameStore s t := by
  refine ⟨?_, runCommand_control he.2 h⟩
  rcases runCommand_next h with ⟨e, -, rfl⟩ | ⟨-, -, rfl⟩
  · rfl
  · exact he.1

/-! ### The frame of the instructions -/

theorem execRdStatus_sameStore {s t : State} (h : execRdStatus s = .next t) : SameStore s t := by
  unfold execRdStatus at h
  cases h
  split <;> exact ⟨rfl, rfl⟩

theorem execRdData_sameStore {s t : State} (h : execRdData s = .next t) : SameStore s t := by
  unfold execRdData at h
  split at h <;> cases h <;> exact ⟨rfl, rfl⟩

theorem execHpRd_sameStore {p : Plane} {off : Nat} {s t : State} (h : execHpRd p off s = .next t) : SameStore s t := by
  obtain ⟨-, -, rfl⟩ := hostAccess_next h
  split <;> exact ⟨rfl, rfl⟩

theorem execWrCmd_sameStore {b : Byte} {s t : State} (h : execWrCmd b s = .next t) : SameStore s t := by
  have hn := notePoll_sameStore .wrCmd s
  rcases execWrCmd_next h with ⟨-, rfl⟩ | ⟨-, u, rfl, rfl | ⟨-, rfl⟩⟩
  · exact hn
  · exact hn.trans (beginCommand_sameStore b _)
  · exact SameStore.trans (t := raiseError .wrCmd .abort (notePoll .wrCmd s)) hn (beginCommand_sameStore b _)

theorem execWrData_sameStore {b : Byte} {s t : State} (h : execWrData b s = .next t) : SameStore s t := by
  have hn := notePoll_sameStore .wrData s
  rcases execWrData_next h with ⟨-, rfl⟩ | ⟨-, rfl⟩ | ⟨-, k, u, -, rfl, rfl⟩ | ⟨-, u, rfl, rfl⟩
  · exact hn
  · exact hn
  · split
    · exact SameStore.trans (t := storeArg b (notePoll .wrData s)) hn (argsComplete_sameStore k _)
    · exact hn
  · split <;> exact hn

theorem execSetgeom_frame {w h : Coord} {s t : State} (hx : execSetgeom w h s = .next t) :
    t.planes = s.planes ∧ t.dm = s.dm ∧ t.cfg = s.cfg ∧ t.bus = s.bus ∧ t.sched = s.sched := by
  unfold execSetgeom at hx
  split at hx <;> cases hx <;> exact ⟨rfl, rfl, rfl, rfl, rfl⟩

theorem execRset_control {x1 y1 x2 y2 : Coord} {data : List Byte} {s t : State}
    (h : execRset x1 y1 x2 y2 data s = .next t) : t.control = s.control := by
  unfold execRset at h
  split at h
  · rename_i e _
    cases h
    exact foldl_inv (P := fun u => u.control = s.control) (step := fun u _ => raiseError .wrData .xdata u)
      (fun _ _ _ hu => hu) rfl
  · split at h
    · exact runCommand_control (setRange_planesOnly data _ _ s).control_eq h
    · cases h

/-- The instructions that can write a plane byte (10_state R103). -/
def writesPlanes : Instr → Bool
  | .pset _ _ _ | .rfill _ _ _ _ _ | .rset _ _ _ _ _ | .hpWr _ _ _ => true
  | .clrerr | .getcfg | .setdm _ | .setgeom _ _ | .pget _ _ | .rget _ _ _ _ | .rdStatus | .wrCmd _ | .wrData _ | .rdData
  | .hpRd _ _ => false

/-- The instructions that can write DM, GW or GH (10_state R112, R119). -/
def writesControl : Instr → Bool
  | .setdm _ | .setgeom _ _ => true
  | .clrerr | .getcfg | .pset _ _ _ | .pget _ _ | .rfill _ _ _ _ _ | .rset _ _ _ _ _ | .rget _ _ _ _ | .rdStatus
  | .wrCmd _ | .wrData _ | .rdData | .hpRd _ _ | .hpWr _ _ _ => false

/-- An instruction that writes neither planes nor control registers keeps both. -/
theorem exec_sameStore {i : Instr} {s t : State} (hp : writesPlanes i = false) (hc : writesControl i = false)
    (h : exec i s = .next t) : SameStore s t := by
  cases i with
  | clrerr =>
    cases h
    exact ⟨rfl, rfl⟩
  | getcfg =>
    rw [exec, execGetcfg_eq] at h
    cases h
    exact ⟨rfl, rfl⟩
  | pget x y => exact runCommand_sameStore (pushPixel_readsOnly _ s).sameStore h
  | rget x1 y1 x2 y2 => exact runCommand_sameStore (getRange_readsOnly _ _ s).sameStore h
  | rdStatus => exact execRdStatus_sameStore h
  | wrCmd b => exact execWrCmd_sameStore h
  | wrData b => exact execWrData_sameStore h
  | rdData => exact execRdData_sameStore h
  | hpRd p off => exact execHpRd_sameStore h
  | pset | rfill | rset | hpWr => cases hp
  | setdm | setgeom => cases hc

theorem exec_planes_eq {i : Instr} {s t : State} (hp : writesPlanes i = false) (h : exec i s = .next t) :
    t.planes = s.planes := by
  cases hc : writesControl i with
  | false => exact (exec_sameStore hp hc h).1
  | true =>
    cases i with
    | setdm m =>
      cases h
      rfl
    | setgeom w h' => exact (execSetgeom_frame h).1
    | clrerr | getcfg | pset | pget | rfill | rset | rget | rdStatus | wrCmd | wrData | rdData | hpRd | hpWr => cases hc

theorem exec_control_eq {i : Instr} {s t : State} (hc : writesControl i = false) (h : exec i s = .next t) :
    t.control = s.control := by
  cases hp : writesPlanes i with
  | false => exact (exec_sameStore hp hc h).2
  | true =>
    cases i with
    | pset c x y => exact runCommand_control (pixelWrite_planesOnly _ c s).control_eq h
    | rfill c x1 y1 x2 y2 => exact runCommand_control (fillRange_planesOnly c _ _ s).control_eq h
    | rset x1 y1 x2 y2 data => exact execRset_control h
    | hpWr p off v =>
      obtain ⟨-, -, rfl⟩ := hostAccess_next h
      split <;> rfl
    | clrerr | getcfg | setdm | setgeom | pget | rget | rdStatus | wrCmd | wrData | rdData | hpRd => cases hp

/-- Settles O52: reset and every other instruction are frames over the planes. -/
theorem onlyWritersChangePlanes : Obligations.OnlyWritersChangePlanes := by
  refine ⟨fun i s t h hpset hrfill hrset hhpWr => exec_planes_eq ?_ h, fun s => rfl⟩
  cases i with
  | pset c x y => exact absurd rfl (hpset c x y)
  | rfill c x1 y1 x2 y2 => exact absurd rfl (hrfill c x1 y1 x2 y2)
  | rset x1 y1 x2 y2 data => exact absurd rfl (hrset x1 y1 x2 y2 data)
  | hpWr p off v => exact absurd rfl (hhpWr p off v)
  | clrerr | getcfg | setdm | setgeom | pget | rget | rdStatus | wrCmd | wrData | rdData | hpRd => rfl

/-- Settles O53: SETDM and SETGEOM write their own registers, the other instructions none of them. -/
theorem controlRegisterWriters : Obligations.ControlRegisterWriters := by
  intro i s t h
  cases hc : writesControl i with
  | false =>
    obtain ⟨hdm, hgw, hgh, hrest⟩ := State.control_eq_iff.mp (exec_control_eq hc h)
    exact ⟨fun _ => hdm, fun _ => ⟨hgw, hgh⟩, hrest⟩
  | true =>
    cases i with
    | setdm m =>
      cases h
      exact ⟨fun hm => absurd rfl (hm m), fun _ => ⟨rfl, rfl⟩, rfl, rfl, rfl⟩
    | setgeom w h' =>
      obtain ⟨-, hdm, hrest⟩ := execSetgeom_frame h
      exact ⟨fun _ => hdm, fun hwh => absurd rfl (hwh w h'), hrest⟩
    | clrerr | getcfg | pset | pget | rfill | rset | rget | rdStatus | wrCmd | wrData | rdData | hpRd | hpWr => cases hc

/-! ### The bits of STATUS -/

/-- The fields of STATUS: the four flags in bits 3:0, the error code in bits 7:4 (10_state R120). -/
theorem statusByte_fields (s : State) :
    s.statusByte.getLsbD 0 = s.busyFlag ∧ s.statusByte.getLsbD 1 = s.drdyFlag ∧ s.statusByte.getLsbD 2 = s.collFlag ∧
      s.statusByte.getLsbD 3 = s.err ∧ s.statusByte.extractLsb' 4 4 = errBits s.ecode := by
  have hfields : ∀ (b d c e : Bool) (k : BitVec 4),
      let v := flagByte b ||| flagByte d <<< 1 ||| flagByte c <<< 2 ||| flagByte e <<< 3 ||| k.setWidth 8 <<< 4
      v.getLsbD 0 = b ∧ v.getLsbD 1 = d ∧ v.getLsbD 2 = c ∧ v.getLsbD 3 = e ∧ v.extractLsb' 4 4 = k := by decide
  exact hfields _ _ _ _ _

/-- Settles O39: the flags' definitions, read off the bits they are placed in. -/
theorem statusBitsFollowState : Obligations.StatusBitsFollowState := by
  intro s
  obtain ⟨hbusy, hdrdy, hcoll, herr, hcode⟩ := statusByte_fields s
  refine ⟨?_, ?_, ?_, herr, ?_⟩
  · rw [hbusy]
    simp [State.busyFlag]
  · rw [hdrdy]
    simp [State.drdyFlag]
  · rw [hcoll]
    simp [State.collFlag]
  · rw [hcode]
    cases s.ecode <;> rfl

end Sys2Proof.Machine

/-!
PROOFS. In Idle, SEL and ARG are unobservable (10_state R131): a bus operation does the same on a state whose SEL and
ARG were rewritten, but for SEL and ARG themselves.
-/

namespace Sys2Proof.Machine

/-- `s` with other contents of SEL and ARG. -/
def State.withSelArg (s : State) (b : Byte) (a : Vector Byte 8) : State := (s.setSel b).setArgs a s.argc

/-- `s` with SEL and ARG forgotten. -/
def State.forgetSelArg (s : State) : State := s.withSelArg 0 (Vector.replicate 8 0)

theorem forgetSelArg_withSelArg (s : State) (b : Byte) (a : Vector Byte 8) :
    (s.withSelArg b a).forgetSelArg = s.forgetSelArg := rfl

theorem notePoll_withSelArg (op : Op) (s : State) (b : Byte) (a : Vector Byte 8) :
    notePoll op (s.withSelArg b a) = (notePoll op s).withSelArg b a := by
  rw [notePoll, notePoll, apply_ite (fun t : State => t.withSelArg b a)]
  rfl

theorem raiseError_withSelArg (op : Op) (c : ErrCode) (s : State) (b : Byte) (a : Vector Byte 8) :
    raiseError op c (s.withSelArg b a) = (raiseError op c s).withSelArg b a := rfl

/-- Beginning a command reads neither SEL nor ARG (40_sequencer R402). -/
theorem beginCommand_withSelArg (c : Byte) (s : State) (b : Byte) (a : Vector Byte 8) :
    (beginCommand c (s.withSelArg b a)).forgetSelArg = (beginCommand c s).forgetSelArg := by
  unfold beginCommand
  simp only [show ((clearProgress ((s.withSelArg b a).setRq [])).setHazard false).cfg = s.cfg from rfl,
    show ((clearProgress (s.setRq [])).setHazard false).cfg = s.cfg from rfl]
  cases kindOf s.cfg.rgetSupported c with
  | none => rfl
  | some k => by_cases h0 : argCount k = 0 <;> simp only [h0, if_true, if_false] <;> rfl

theorem execWrCmd_idle {c : Byte} {s : State} (h : s.phase = .idle) :
    execWrCmd c s = .next (beginCommand c (notePoll .wrCmd s)) := by
  simp [execWrCmd, State.busyFlag, State.collFlag, notePoll_phase, h]

theorem execWrData_idle {c : Byte} {s : State} (h : s.phase = .idle) :
    execWrData c s = .next (raiseError .wrData .xdata (notePoll .wrData s)) := by
  simp only [execWrData, notePoll_phase, h]

theorem execRdStatus_idle {s : State} (h : s.phase = .idle) :
    execRdStatus s = .next ((s.setPollDue false).reply s.statusByte) := by
  simp [execRdStatus, State.busyFlag, h]

theorem execHpRd_idle {p : Plane} {off : Nat} {s : State} (h : s.phase = .idle) :
    execHpRd p off s = hostAccess off s (s.reply (s.planeByte p off)) := by
  rw [execHpRd, if_pos h]

theorem execHpWr_idle {p : Plane} {off : Nat} {v : Byte} {s : State} (h : s.phase = .idle) :
    execHpWr p off v s = hostAccess off s (s.putByte p off v) := by
  rw [execHpWr, if_pos h]

/-- Whether a host plane access stops depends on the parameters only. -/
theorem viewOutcome_hostAccess {α : Type} (view : State → α) (off : Nat) (s u : State) :
    viewOutcome view (hostAccess off s u) =
      if s.cfg.hostPlanePort then (if off < s.cfg.planeBytes then .next (view u) else .fault .planeOffset)
      else .refused .noHostPlanePort := by
  unfold hostAccess
  split
  · split <;> rfl
  · rfl

theorem exec_withSelArg {i : Instr} {s : State} (hp : s.phase = .idle) (hi : isCommand i = false) (b : Byte)
    (a : Vector Byte 8) :
    viewOutcome State.forgetSelArg (exec i (s.withSelArg b a)) = viewOutcome State.forgetSelArg (exec i s) := by
  have hp' : (s.withSelArg b a).phase = .idle := hp
  cases i with
  | rdStatus =>
    simp only [exec, execRdStatus_idle hp, execRdStatus_idle hp']
    rfl
  | wrCmd c =>
    simp only [exec, execWrCmd_idle hp, execWrCmd_idle hp', viewOutcome, notePoll_withSelArg, beginCommand_withSelArg]
  | wrData c =>
    simp only [exec, execWrData_idle hp, execWrData_idle hp', viewOutcome, notePoll_withSelArg, raiseError_withSelArg,
      forgetSelArg_withSelArg]
  | rdData =>
    simp only [exec, execRdData, show (s.withSelArg b a).rq = s.rq from rfl]
    cases s.rq <;> rfl
  | hpRd p off =>
    simp only [exec, execHpRd_idle hp, execHpRd_idle hp', viewOutcome_hostAccess]
    rfl
  | hpWr p off v =>
    simp only [exec, execHpWr_idle hp, execHpWr_idle hp', viewOutcome_hostAccess]
    rfl
  | clrerr | getcfg | setdm | setgeom | pset | pget | rfill | rset | rget => cases hi

/-- Settles O54: in Idle no bus operation reads SEL or ARG. -/
theorem idleSelAndArgUnobservable : Obligations.IdleSelAndArgUnobservable :=
  fun _ _ b a hp hi => exec_withSelArg hp hi b a

end Sys2Proof.Machine

/-!
PROOFS. The host's turn (20_memory R240, R241): a step on which the engine does not move runs the host's first event, and
WAITRDY goes round again exactly outside Idle (30_encoding R351).
-/

namespace Sys2Proof.Machine

/-! ### WAITRDY and the phase -/

/-- The mask `0x05` keeps bits 0 and 2 of STATUS, which are BUSY and COLL. -/
theorem mustWait_eq_flags (s : State) : s.mustWait = (s.busyFlag || s.collFlag) := by
  have hmask : ∀ v : Byte, (v &&& 0x05 != 0) = (v.getLsbD 0 || v.getLsbD 2) := by decide
  obtain ⟨hbusy, -, hcoll, -, -⟩ := statusByte_fields s
  rw [State.mustWait, hmask, hbusy, hcoll]

/-- BUSY and COLL are both 0 in Idle only (10_state R121, R123). -/
theorem mustWait_eq_false_iff (s : State) : s.mustWait = false ↔ s.phase = .idle := by
  rw [mustWait_eq_flags, State.busyFlag, State.collFlag]
  cases s.phase <;> decide

/-- STATUS does not depend on whose turn it is. -/
@[simp] theorem mustWait_popTurn (s : State) : s.popTurn.mustWait = s.mustWait := rfl

/-! ### What the host's turn runs -/

theorem fetch_host {s : State} (hm : s.engineMoves = false) : fetch s = fetchHost s.popTurn := by
  simp [fetch, hm]

theorem fetchHost_cycle {s : State} {c : BusCycle} {rest : List HostEvent} {i : Instr} (hb : s.bus = .cycle c :: rest)
    (hd : decodeBus s.cfg c = .ok i) : fetchHost s = .run i (s.setBus rest) := by
  simp only [fetchHost, hb, hd]

theorem fetchHost_waitRdy {s : State} {rest : List HostEvent} (hb : s.bus = .waitRdy :: rest) :
    fetchHost s = .run .rdStatus (if s.mustWait then s else s.setBus rest) := by
  simp only [fetchHost, hb]

theorem fetchHost_nil {s : State} (hb : s.bus = []) : fetchHost s = .goOn s := by
  simp only [fetchHost, hb]

theorem step_of_fetch_run {s u : State} {i : Instr} (h : fetch s = .run i u) : step s = exec i u := by
  rw [step, h]

theorem step_of_fetch_goOn {s u : State} (h : fetch s = .goOn u) : step s = .next u := by
  rw [step, h]

/-- WAITRDY stays the first event exactly while PHASE is not Idle. -/
theorem fetch_waitRdy {s : State} {rest : List HostEvent} (hm : s.engineMoves = false) (hb : s.bus = .waitRdy :: rest) :
    fetch s = .run .rdStatus (if s.phase = .idle then s.popTurn.setBus rest else s.popTurn) := by
  rw [fetch_host hm, fetchHost_waitRdy (s := s.popTurn) hb, mustWait_popTurn]
  by_cases hp : s.phase = .idle
  · simp [hp, (mustWait_eq_false_iff s).mpr hp]
  · have hw : s.mustWait = true := eq_true_of_ne_false (mt (mustWait_eq_false_iff s).mp hp)
    simp [hp, hw]

/-- Settles O5: the host's fetch on each kind of first event, a used-up turn leaving the events and the parameters as they
were. -/
theorem hostStepRunsFirstEvent : Obligations.HostStepRunsFirstEvent := by
  intro s hm
  refine ⟨fun c rest i hb hd => ?_, fun rest hb => step_of_fetch_run (fetch_waitRdy hm hb), fun hb => ?_⟩
  · exact step_of_fetch_run ((fetch_host hm).trans (fetchHost_cycle (s := s.popTurn) hb hd))
  · exact step_of_fetch_goOn ((fetch_host hm).trans (fetchHost_nil (s := s.popTurn) hb))

end Sys2Proof.Machine

/-!
PROOFS. The encoding (30_encoding): the selector map, a command's bytes as selector, operands and data, and the decoder and
the encoder as inverses of each other.
-/

namespace Sys2Proof.Machine

/-! ### The selector map -/

/-- The selector that the encoder gives a command of kind `k` whose colour or mode bits are those of `b`
(30_encoding R305, R306). -/
def selectorOf (b : Byte) : Kind → Byte
  | .clrerr => 0x01
  | .getcfg => 0x08
  | .setdm => 0x10 ||| (DrawMode.bits (DrawMode.ofBits (b.setWidth 2))).setWidth 8
  | .setgeom => 0x20
  | .pset => 0x30 ||| (b.setWidth 4 : Colour).setWidth 8
  | .pget => 0x40
  | .rfill => 0x50 ||| (b.setWidth 4 : Colour).setWidth 8
  | .rset => 0x60
  | .rget => 0x70

/-- A selector carries nothing but its kind and its colour or mode bits (30_encoding R322). -/
theorem selectorOf_of_kindOf {r : Bool} {b : Byte} {k : Kind} (h : kindOf r b = some k) : selectorOf b k = b := by
  have hall : ∀ r b, ∀ k ∈ kindOf r b, selectorOf b k = b := by decide
  exact hall r b k h

/-- Selector 0x70 is legal only where RGET is supported (30_encoding R320). -/
theorem rgetSupported_of_kindOf {r : Bool} {b : Byte} (h : kindOf r b = some .rget) : r = true := by
  have hall : ∀ b, kindOf false b ≠ some .rget := by decide
  cases r with
  | false => exact absurd h (hall b)
  | true => rfl

/-- The selectors that carry no colour or mode, but for RGET's. -/
theorem kindOf_plain : ∀ r, kindOf r 0x01 = some .clrerr ∧ kindOf r 0x08 = some .getcfg ∧ kindOf r 0x20 = some .setgeom ∧
    kindOf r 0x40 = some .pget ∧ kindOf r 0x60 = some .rset := by decide

theorem kindOf_rget {r : Bool} (h : r = true) : kindOf r 0x70 = some .rget := by
  subst h
  decide

theorem kindOf_setdm (r : Bool) (m : DrawMode) : kindOf r (0x10 ||| (DrawMode.bits m).setWidth 8) = some .setdm := by
  revert r
  cases m <;> decide

theorem kindOf_pset : ∀ (r : Bool) (c : Colour), kindOf r (0x30 ||| c.setWidth 8) = some .pset := by decide

theorem kindOf_rfill : ∀ (r : Bool) (c : Colour), kindOf r (0x50 ||| c.setWidth 8) = some .rfill := by decide

/-! ### Operands and their bytes -/

/-- The `j`-th 16-bit operand of a command's argument bytes (30_encoding R310). -/
def operandAt (bytes : List Byte) (j : Nat) : Coord := le16 (bytes.getD (2 * j) 0) (bytes.getD (2 * j + 1) 0)

theorem le16_eq_append (b0 b1 : Byte) : le16 b0 b1 = b1 ++ b0 := by
  rw [le16, BitVec.or_comm, BitVec.append_def, BitVec.shiftLeftZeroExtend_eq]
  rfl

theorem le16_loByte_hiByte (v : Coord) : le16 (loByte v) (hiByte v) = v :=
  (le16_eq_append _ _).trans BitVec.extractLsb'_append_extractLsb'

theorem coordBytes_le16 (b0 b1 : Byte) : coordBytes (le16 b0 b1) = [b0, b1] := by
  have hlo : loByte (b1 ++ b0) = b0 := BitVec.extractLsb'_append_eq_right
  have hhi : hiByte (b1 ++ b0) = b1 := BitVec.extractLsb'_append_eq_left
  rw [coordBytes, le16_eq_append, hlo, hhi]

@[simp] theorem operandAt_coordBytes_zero (v : Coord) (rest : List Byte) : operandAt (coordBytes v ++ rest) 0 = v :=
  le16_loByte_hiByte v

@[simp] theorem operandAt_coordBytes (v : Coord) : operandAt (coordBytes v) 0 = v := le16_loByte_hiByte v

@[simp] theorem operandAt_coordBytes_succ (v : Coord) (rest : List Byte) (j : Nat) :
    operandAt (coordBytes v ++ rest) (j + 1) = operandAt rest j := rfl

/-- The operands of enough argument bytes give the bytes back. -/
theorem coordBytes_operandAt {n : Nat} {bytes : List Byte} (h : 2 * n ≤ bytes.length) :
    ((List.range n).map (operandAt bytes)).flatMap coordBytes = bytes.take (2 * n) := by
  induction n generalizing bytes with
  | zero => rfl
  | succ n ih =>
    obtain ⟨b0, b1, rest, rfl⟩ : ∃ b0 b1 rest, bytes = b0 :: b1 :: rest := by
      rcases bytes with _ | ⟨b0, _ | ⟨b1, rest⟩⟩
      · simp at h
      · simp at h; omega
      · exact ⟨b0, b1, rest, rfl⟩
    have hfirst : operandAt (b0 :: b1 :: rest) 0 = le16 b0 b1 := rfl
    have hnext : operandAt (b0 :: b1 :: rest) ∘ Nat.succ = operandAt rest := rfl
    rw [List.range_succ_eq_map, List.map_cons, List.map_map, hnext, List.flatMap_cons, hfirst, coordBytes_le16,
      ih (by simp at h; omega)]
    rfl

/-! ### A command's bytes: selector, operands, data -/

/-- The command of kind `k` with the colour or mode bits of `sel`, the operands `arg` and the bytes `data`
(30_encoding R306, R307, R310). -/
def commandFrom (sel : Byte) (arg : Nat → Coord) (data : List Byte) : Kind → Instr
  | .clrerr => .clrerr
  | .getcfg => .getcfg
  | .setdm => .setdm (DrawMode.ofBits (sel.setWidth 2))
  | .setgeom => .setgeom (arg 0) (arg 1)
  | .pset => .pset (sel.setWidth 4) (arg 0) (arg 1)
  | .pget => .pget (arg 0) (arg 1)
  | .rfill => .rfill (sel.setWidth 4) (arg 0) (arg 1) (arg 2) (arg 3)
  | .rset => .rset (arg 0) (arg 1) (arg 2) (arg 3) data
  | .rget => .rget (arg 0) (arg 1) (arg 2) (arg 3)

/-- How many data bytes follow an instruction's argument bytes (30_encoding R315, R316). -/
def dataLength (gw gh : Coord) : Instr → Nat
  | .rset x1 y1 x2 y2 _ => rsetCount gw gh x1 y1 x2 y2
  | .clrerr | .getcfg | .setdm _ | .setgeom _ _ | .pset _ _ _ | .pget _ _ | .rfill _ _ _ _ _ | .rget _ _ _ _
  | .rdStatus | .wrCmd _ | .wrData _ | .rdData | .hpRd _ _ | .hpWr _ _ _ => 0

/-- The decoder past the selector: the kind's command with the operands of the argument bytes, and the data bytes that it
takes of the rest (30_encoding R301, R316). -/
theorem decodeCommand_cons {r : Bool} {gw gh : Coord} {sel : Byte} {bytes : List Byte} {k : Kind}
    (hk : kindOf r sel = some k) (hargs : argCount k ≤ bytes.length) :
    decodeCommand r gw gh (sel :: bytes) =
      let rest := bytes.drop (argCount k)
      let n := dataLength gw gh (commandFrom sel (operandAt bytes) rest k)
      if rest.length < n then .error .truncated
      else .ok (commandFrom sel (operandAt bytes) (rest.take n) k, rest.drop n) := by
  simp only [decodeCommand, hk, if_neg (Nat.not_lt.mpr hargs)]
  cases k <;> rfl

/-- A command must use exactly its length of bytes: one byte less is truncated, one more is trailing (30_encoding R316). -/
theorem decode_command_cons {cfg : Config} {gw gh : Coord} {sel : Byte} {bytes : List Byte} {k : Kind}
    (hk : kindOf cfg.rgetSupported sel = some k) (hargs : argCount k ≤ bytes.length) :
    decode cfg gw gh (.command (sel :: bytes)) =
      let i := commandFrom sel (operandAt bytes) (bytes.drop (argCount k)) k
      if bytes.length = argCount k + dataLength gw gh i then .ok i
      else if bytes.length < argCount k + dataLength gw gh i then .error .truncated else .error .trailing := by
  rw [decode, decodeCommand_cons hk hargs]
  simp only
  generalize hn : dataLength gw gh _ = n
  have hlen : (bytes.drop (argCount k)).length = bytes.length - argCount k := List.length_drop
  rcases Nat.lt_trichotomy bytes.length (argCount k + n) with hlt | heq | hgt
  · rw [if_pos (by omega), if_neg (by omega), if_pos hlt]
  · have htake : (bytes.drop (argCount k)).take n = bytes.drop (argCount k) := List.take_of_length_le (by omega)
    have hdrop : (bytes.drop (argCount k)).drop n = [] := List.drop_eq_nil_of_le (by omega)
    rw [if_neg (by omega), if_pos heq, htake, hdrop]
  · rw [if_neg (by omega), if_neg (by omega), if_neg (by omega)]
    cases hrest : (bytes.drop (argCount k)).drop n with
    | nil =>
      have := List.drop_eq_nil_iff.mp hrest
      omega
    | cons b rest => rfl

/-- What a command's bytes decode to: a legal selector's command, on exactly the bytes of its length (30_encoding R316). -/
theorem decode_command_ok_iff {cfg : Config} {gw gh : Coord} {sel : Byte} {bytes : List Byte} {i : Instr} :
    decode cfg gw gh (.command (sel :: bytes)) = .ok i ↔
      ∃ k, kindOf cfg.rgetSupported sel = some k ∧ bytes.length = argCount k + dataLength gw gh i ∧
        i = commandFrom sel (operandAt bytes) (bytes.drop (argCount k)) k := by
  cases hk : kindOf cfg.rgetSupported sel with
  | none => simp [decode, decodeCommand, hk]
  | some k =>
    by_cases hargs : argCount k ≤ bytes.length
    · simp only [decode_command_cons hk hargs, Option.some.injEq, exists_eq_left']
      constructor
      · intro h
        split_ifs at h with hlen
        obtain rfl := Except.ok.inj h
        exact ⟨hlen, rfl⟩
      · rintro ⟨hlen, rfl⟩
        rw [if_pos hlen]
    · have hshort : bytes.length < argCount k := by omega
      simp [decode, decodeCommand, hk, hshort]
      omega

/-! ### Encoding after decoding -/

/-- Encoding the command that a legal selector and the bytes of its length carry gives those bytes (30_encoding R322). -/
theorem encode_commandFrom {cfg : Config} {r : Bool} {gw gh : Coord} {sel : Byte} {bytes : List Byte} {k : Kind}
    (hk : kindOf r sel = some k)
    (hlen : bytes.length =
      argCount k + dataLength gw gh (commandFrom sel (operandAt bytes) (bytes.drop (argCount k)) k)) :
    encode cfg (commandFrom sel (operandAt bytes) (bytes.drop (argCount k)) k) = .command (sel :: bytes) := by
  have hsel := selectorOf_of_kindOf hk
  have htwo (h : 4 ≤ bytes.length) :
      coordBytes (operandAt bytes 0) ++ coordBytes (operandAt bytes 1) = bytes.take 4 := by
    simpa [List.range_succ] using coordBytes_operandAt (n := 2) h
  have hfour (h : 8 ≤ bytes.length) :
      rectBytes (operandAt bytes 0) (operandAt bytes 1) (operandAt bytes 2) (operandAt bytes 3) = bytes.take 8 := by
    simpa [List.range_succ, rectBytes] using coordBytes_operandAt (n := 4) h
  cases k with
  | clrerr | getcfg | setdm =>
    obtain rfl : bytes = [] := List.length_eq_zero_iff.mp hlen
    exact congrArg (fun b => Code.command [b]) hsel
  | setgeom | pset | pget =>
    have hlen4 : bytes.length = 4 := hlen
    rw [commandFrom, encode, htwo hlen4.ge, List.take_of_length_le hlen4.le]
    exact congrArg (fun b => Code.command (b :: bytes)) hsel
  | rfill | rget =>
    have hlen8 : bytes.length = 8 := hlen
    rw [commandFrom, encode, hfour hlen8.ge, List.take_of_length_le hlen8.le]
    exact congrArg (fun b => Code.command (b :: bytes)) hsel
  | rset =>
    have hlen8 : 8 ≤ bytes.length := hlen ▸ Nat.le_add_right 8 _
    rw [commandFrom, encode, hfour hlen8, argCount, List.take_append_drop]
    exact congrArg (fun b => Code.command (b :: bytes)) hsel

theorem wf_commandFrom {cfg : Config} {gw gh : Coord} {sel : Byte} {arg : Nat → Coord} {data : List Byte} {k : Kind}
    (hk : kindOf cfg.rgetSupported sel = some k) (hdata : data.length = dataLength gw gh (commandFrom sel arg data k)) :
    (commandFrom sel arg data k).wf cfg gw gh = true := by
  cases k with
  | rset => exact beq_iff_eq.mpr hdata
  | rget => exact rgetSupported_of_kindOf hk
  | clrerr | getcfg | setdm | setgeom | pset | pget | rfill => rfl

/-- Settles O9: decoding accepts a legal selector with exactly its length of bytes, and every bit of them is in the
selector's kind or in a field of the command. -/
theorem encodeOfDecode : Obligations.EncodeOfDecode := by
  intro cfg gw gh bytes i h
  cases bytes with
  | nil => cases h
  | cons sel bytes =>
    obtain ⟨k, hk, hlen, rfl⟩ := decode_command_ok_iff.mp h
    exact ⟨encode_commandFrom hk hlen, wf_commandFrom hk (by rw [List.length_drop]; omega)⟩

/-! ### Decoding after encoding -/

@[simp] theorem ofBits_bits (m : DrawMode) : DrawMode.ofBits (DrawMode.bits m) = m := by cases m <;> decide

/-- A well-formed command's bytes decode to it, whatever the port addresses are. -/
theorem decode_encode_command {cfg : Config} {gw gh : Coord} {i : Instr} (hi : isCommand i = true)
    (hwf : i.wf cfg gw gh = true) : decode cfg gw gh (encode cfg i) = .ok i := by
  obtain ⟨hclrerr, hgetcfg, hsetgeom, hpget, hrset⟩ := kindOf_plain cfg.rgetSupported
  cases i with
  | clrerr => exact decode_command_ok_iff.mpr ⟨.clrerr, hclrerr, rfl, rfl⟩
  | getcfg => exact decode_command_ok_iff.mpr ⟨.getcfg, hgetcfg, rfl, rfl⟩
  | setdm m => exact decode_command_ok_iff.mpr ⟨.setdm, kindOf_setdm _ m, rfl, by simp [commandFrom]⟩
  | setgeom w h => exact decode_command_ok_iff.mpr ⟨.setgeom, hsetgeom, rfl, by simp [commandFrom]⟩
  | pset c x y => exact decode_command_ok_iff.mpr ⟨.pset, kindOf_pset _ c, rfl, by simp [commandFrom]⟩
  | pget x y => exact decode_command_ok_iff.mpr ⟨.pget, hpget, rfl, by simp [commandFrom]⟩
  | rfill c x1 y1 x2 y2 =>
    exact decode_command_ok_iff.mpr ⟨.rfill, kindOf_rfill _ c, rfl, by simp [commandFrom, rectBytes]⟩
  | rset x1 y1 x2 y2 data =>
    have hdata : data.length = rsetCount gw gh x1 y1 x2 y2 := beq_iff_eq.mp hwf
    have hrect : (rectBytes x1 y1 x2 y2).length = argCount .rset := rfl
    refine decode_command_ok_iff.mpr ⟨.rset, hrset, ?_, ?_⟩
    · rw [List.length_append, hdata]
      rfl
    · rw [List.drop_left' hrect]
      simp [commandFrom, rectBytes]
  | rget x1 y1 x2 y2 =>
    exact decode_command_ok_iff.mpr ⟨.rget, kindOf_rget hwf, rfl, by simp [commandFrom, rectBytes]⟩
  | rdStatus | wrCmd | wrData | rdData | hpRd | hpWr => cases hi

/-- A reachable plane byte's host address names that byte (20_memory R202). -/
theorem windowByte_of_hostReachable {cfg : Config} {p : Plane} {off : Nat} (h : hostReachable cfg p off = true) :
    windowByte cfg (cfg.planeBase.get p + off) = .ok (p, off) := by
  simp only [hostReachable, Bool.and_eq_true, decide_eq_true_eq, List.all_eq_true, Bool.or_eq_true, beq_iff_eq,
    Bool.not_eq_true'] at h
  obtain ⟨⟨-, hoff⟩, hother⟩ := h
  have hown : inWindow cfg (cfg.planeBase.get p + off) p = true := by simp [inWindow, hoff]
  have hwindows : inWindow cfg (cfg.planeBase.get p + off) = (· == p) := by
    funext q
    by_cases hq : q = p
    · rw [hq, hown, beq_self_eq_true]
    · rw [(hother q (Plane.mem_all q)).resolve_left hq, beq_false_of_ne hq]
  have honly : Plane.all.filter (· == p) = [p] := by cases p <;> decide
  simp only [windowByte, hwindows, honly, Nat.add_sub_cancel_left]

/-- Settles O8: a command through its selector, operands and data; a bus operation through the port or the window whose
address its cycle carries. -/
theorem decodeOfEncode : Obligations.DecodeOfEncode := by
  intro cfg gw gh i hcfg hwf
  obtain ⟨-, hports, -, -⟩ := hcfg
  cases i with
  | clrerr | getcfg | setdm | setgeom | pset | pget | rfill | rset | rget => exact decode_encode_command rfl hwf
  | rdStatus | wrCmd => exact if_pos rfl
  | wrData | rdData => exact (if_neg hports.symm).trans (if_pos rfl)
  | hpRd p off | hpWr p off v => simp only [encode, decode, decodeBus, windowByte_of_hostReachable hwf, Except.map]

/-- Settles O7: the decoder evaluated on the spec's examples. -/
theorem specWordsDecode : Obligations.SpecWordsDecode := ⟨rfl, rfl, rfl, rfl, rfl, rfl⟩

end Sys2Proof.Machine

/-!
PROOFS. The transfers that carry a command (30_encoding R300, R350): what a selector byte, the argument bytes and the data
bytes leave in the command registers; a reserved selector; RSET's data bits; the pseudo-instructions.
-/

namespace Sys2Proof.Machine

/-! ### The selector byte -/

/-- Outside Exec, WR_CMD begins a command, on a state where at most an ABORT was raised (40_sequencer R402). -/
theorem execWrCmd_of_ne_exec (b : Byte) {s : State} (h : s.phase ≠ .exec) :
    ∃ u, execWrCmd b s = .next (beginCommand b u) ∧ u.cfg = s.cfg ∧ (s.phase = .idle → u.err = s.err) := by
  obtain ⟨hengine, hcfg, -⟩ := notePoll_keeps .wrCmd s
  have hbusy : (notePoll .wrCmd s).busyFlag = false := by simpa [State.busyFlag, notePoll_phase] using h
  refine ⟨if (notePoll .wrCmd s).collFlag then raiseError .wrCmd .abort (notePoll .wrCmd s) else notePoll .wrCmd s,
    by simp [execWrCmd, hbusy], ?_, fun hidle => ?_⟩
  · split <;> exact hcfg
  · have hcoll : (notePoll .wrCmd s).collFlag = false := by simp [State.collFlag, notePoll_phase, hidle]
    rw [hcoll]
    exact congrArg Engine.err hengine

/-- A reserved selector raises BADSEL and leaves Idle (30_encoding R320). -/
theorem beginCommand_reserved {b : Byte} {s : State} (h : kindOf s.cfg.rgetSupported b = none) :
    beginCommand b s = toIdle (raiseError .wrCmd .badSel ((clearProgress (s.setRq [])).setHazard false)) := by
  rcases beginCommand_cases b s with ⟨-, hb⟩ | ⟨k, hk, -⟩
  · exact hb
  · rw [h] at hk
    cases hk

/-- Settles O10: the selector map over all 256 bytes, with and without RGET, and WR_CMD of a selector outside it. -/
theorem reservedSelectorsRaiseBadsel : Obligations.ReservedSelectorsRaiseBadsel := by
  refine ⟨by decide, by decide, fun s b hp hb => ?_⟩
  obtain ⟨u, hx, hcfg, herr⟩ := execWrCmd_of_ne_exec b hp
  refine ⟨_, hx, ?_⟩
  rw [beginCommand_reserved (hcfg ▸ hb)]
  refine ⟨rfl, rfl, List.mem_cons_self, fun hidle he => ?_⟩
  exact if_neg (by simp [clearProgress, herr hidle, he])

/-! ### Instructions one after the other -/

theorem issue_append {is : List Instr} {s t : State} (h : issue is s = .next t) (js : List Instr) :
    issue (is ++ js) s = issue js t := by
  induction is generalizing s with
  | nil =>
    cases h
    rfl
  | cons i is ih =>
    simp only [List.cons_append, issue] at h ⊢
    cases hx : exec i s with
    | next u =>
      rw [hx] at h
      exact ih h
    | fault | refused =>
      rw [hx] at h
      cases h

theorem issue_cons {i : Instr} {s t : State} (h : exec i s = .next t) (is : List Instr) :
    issue (i :: is) s = issue is t := by
  rw [issue, h]

theorem notePoll_of_not_due {op : Op} {s : State} (h : s.pollDue = false) : notePoll op s = s := by
  simp [notePoll, h]

theorem notePoll_pollDue {op : Op} {s : State} (h : s.phase ≠ .exec) : (notePoll op s).pollDue = false := by
  have hbusy : s.busyFlag = false := by simpa [State.busyFlag] using h
  cases hd : s.pollDue with
  | false => rw [notePoll_of_not_due hd, hd]
  | true => simp [notePoll, hd, hbusy]

/-! ### The argument bytes -/

theorem take_setIfInBounds {a : Vector Byte 8} {n : Nat} (h : n < 8) (b : Byte) :
    (a.setIfInBounds n b).toList.take (n + 1) = a.toList.take n ++ [b] := by
  rw [Vector.toList_setIfInBounds, List.take_succ_eq_append_getElem (by simpa using h),
    List.take_set_of_le (le_refl n), List.getElem_set_self]

theorem exec_wrData_collect {b : Byte} {k : Kind} {s : State} (hp : s.phase = .collect) (hd : s.pollDue = false)
    (hk : kindOf s.cfg.rgetSupported s.sel = some k) :
    exec (.wrData b) s = .next (if s.argc + 1 = argCount k then argsComplete k (storeArg b s) else storeArg b s) := by
  simp only [exec, execWrData, notePoll_of_not_due hd, hp, hk]
  rfl

/-- In Collect, writing all the argument bytes that are still awaited stores them and completes the arguments
(40_sequencer R403, R410). -/
theorem issue_arguments {k : Kind} {bytes : List Byte} {s : State} (hp : s.phase = .collect) (hd : s.pollDue = false)
    (hk : kindOf s.cfg.rgetSupported s.sel = some k) (hne : bytes ≠ []) (hlen : s.argc + bytes.length = argCount k) :
    ∃ a : Vector Byte 8, a.toList.take (argCount k) = s.arg.toList.take s.argc ++ bytes ∧
      issue (bytes.map .wrData) s = .next (argsComplete k (s.setArgs a (argCount k))) := by
  induction bytes generalizing s with
  | nil => exact absurd rfl hne
  | cons b bytes ih =>
    have hargs := argCount_le k
    rw [List.length_cons] at hlen
    have hstored : (storeArg b s).arg.toList.take (s.argc + 1) = s.arg.toList.take s.argc ++ [b] :=
      take_setIfInBounds (by omega) b
    have hx := exec_wrData_collect (b := b) hp hd hk
    cases bytes with
    | nil =>
      have hlast : s.argc + 1 = argCount k := hlen
      rw [if_pos hlast] at hx
      refine ⟨(storeArg b s).arg, hlast ▸ hstored, (issue_cons hx []).trans ?_⟩
      rw [← hlast]
      rfl
    | cons b' bytes =>
      have hmore : s.argc + 1 ≠ argCount k := by
        rw [List.length_cons] at hlen
        omega
      rw [if_neg hmore] at hx
      obtain ⟨a, ha, hissue⟩ := ih (s := storeArg b s) hp hd hk (by simp) (by rw [← hlen]; simp [storeArg]; omega)
      refine ⟨a, ?_, (issue_cons hx _).trans hissue⟩
      rw [ha, show (storeArg b s).argc = s.argc + 1 from rfl, hstored, List.append_assoc]
      rfl

/-! ### The data bytes -/

theorem exec_wrData_data {b : Byte} {s : State} (hp : s.phase = .data) (hd : s.pollDue = false) :
    exec (.wrData b) s = .next (if s.dcnt + 1 = s.dataCount then enterExec (storeData b s) else storeData b s) := by
  simp only [exec, execWrData, notePoll_of_not_due hd, hp]
  rfl

/-- In Data, writing all the data bytes that are still awaited stores them and enters Exec (40_sequencer R403). -/
theorem issue_data {bytes : List Byte} {s : State} (hp : s.phase = .data) (hd : s.pollDue = false) (hne : bytes ≠ [])
    (hlen : s.dcnt + bytes.length = s.dataCount) :
    issue (bytes.map .wrData) s = .next (enterExec (s.setData (s.dbuf ++ bytes) (s.dcnt + bytes.length))) := by
  induction bytes generalizing s with
  | nil => exact absurd rfl hne
  | cons b bytes ih =>
    have hx := exec_wrData_data (b := b) hp hd
    cases bytes with
    | nil =>
      have hlast : s.dcnt + 1 = s.dataCount := hlen
      rw [if_pos hlast] at hx
      exact issue_cons hx []
    | cons b' bytes =>
      have hsum : s.dcnt + 1 + (b' :: bytes).length = s.dcnt + (b :: b' :: bytes).length := by
        simp only [List.length_cons]
        omega
      have hmore : s.dcnt + 1 ≠ s.dataCount := by
        simp only [List.length_cons] at hlen
        omega
      rw [if_neg hmore] at hx
      have hrest := ih (s := storeData b s) hp hd (by simp) (hsum.trans hlen)
      rw [show (storeData b s).dcnt + (b' :: bytes).length = _ from hsum,
        show (storeData b s).dbuf = s.dbuf ++ [b] from rfl, List.append_assoc] at hrest
      exact (issue_cons hx _).trans hrest

/-! ### A whole command -/

/-- `s` with a command's bytes in its registers: selector, argument registers `a` of which `n` are in use, data bytes. -/
def State.loaded (s : State) (sel : Byte) (a : Vector Byte 8) (n : Nat) (data : List Byte) : State :=
  { s with rq := [], hazard := false, sel := sel, arg := a, argc := n, dbuf := data, dcnt := data.length }

theorem argsComplete_setPhase (k : Kind) (s : State) (p : Phase) : argsComplete k (s.setPhase p) = argsComplete k s := by
  have hv : validate k (s.setPhase p) = validate k s := by cases k <;> rfl
  rw [argsComplete, argsComplete, hv]
  rfl

theorem argsComplete_of_argCount_zero {k : Kind} (h : argCount k = 0) (s : State) : argsComplete k s = enterExec s := by
  obtain ⟨hv, hr⟩ := validate_of_argCount_zero h s
  rw [argsComplete, hv]
  exact if_neg hr

/-- A legal selector starts its command with empty registers, in Exec where no argument follows (40_sequencer R402). -/
theorem beginCommand_legal {s : State} {sel : Byte} {k : Kind} (hk : kindOf s.cfg.rgetSupported sel = some k) :
    beginCommand sel s =
      if argCount k = 0 then enterExec (s.loaded sel s.arg 0 []) else (s.loaded sel s.arg 0 []).setPhase .collect := by
  rcases beginCommand_cases sel s with ⟨hnone, -⟩ | ⟨j, hj, ⟨h0, hb⟩ | ⟨h0, hb⟩⟩
  · rw [hk] at hnone
    cases hnone
  · obtain rfl : k = j := Option.some.inj (hk.symm.trans hj)
    rw [hb, if_pos h0]
    rfl
  · obtain rfl : k = j := Option.some.inj (hk.symm.trans hj)
    rw [hb, if_neg h0]
    rfl

/-- A legal selector and its argument bytes end in ArgsComplete on the registers that hold them. -/
theorem issue_arguments_beginCommand {s : State} {sel : Byte} {k : Kind} {args : List Byte} (hd : s.pollDue = false)
    (hk : kindOf s.cfg.rgetSupported sel = some k) (hlen : args.length = argCount k) :
    ∃ a : Vector Byte 8, a.toList.take (argCount k) = args ∧
      issue (args.map .wrData) (beginCommand sel s) = .next (argsComplete k (s.loaded sel a (argCount k) [])) := by
  rw [beginCommand_legal hk]
  by_cases h0 : argCount k = 0
  · obtain rfl : args = [] := List.length_eq_zero_iff.mp (hlen.trans h0)
    refine ⟨s.arg, by rw [h0, List.take_zero], ?_⟩
    rw [if_pos h0, argsComplete_of_argCount_zero h0, h0]
    rfl
  · have hne : args ≠ [] := fun h => h0 (by rw [← hlen, h, List.length_nil])
    obtain ⟨a, ha, hissue⟩ := issue_arguments (s := (s.loaded sel s.arg 0 []).setPhase .collect) rfl hd hk hne
      ((Nat.zero_add _).trans hlen)
    refine ⟨a, ha, ?_⟩
    rw [if_neg h0, hissue, ← argsComplete_setPhase k (s.loaded sel a (argCount k) []) .collect]
    rfl

/-- Past validation, an RSET's data bytes, and no byte of another command, lead to Exec (40_sequencer R403, R410). -/
theorem issue_data_argsComplete {s : State} {k : Kind} {data : List Byte} (hd : s.pollDue = false)
    (hbuf : s.dbuf = []) (hcnt : s.dcnt = 0) (hv : validate k s = none)
    (hlen : data.length = if k = .rset then s.dataCount else 0) :
    issue (data.map .wrData) (argsComplete k s) = .next (enterExec (s.setData data data.length)) := by
  rcases argsComplete_cases k s with ⟨e, he, -⟩ | ⟨-, rfl, hne, hs⟩ | ⟨-, hz, hs⟩
  · rw [hv] at he
    cases he
  · rw [if_pos rfl] at hlen
    have hdata : data ≠ [] := fun h => hne (by rw [← hlen, h, List.length_nil])
    have hall : s.dcnt + data.length = s.dataCount := by rw [hcnt, Nat.zero_add, hlen]
    have hissue := issue_data (s := s.setPhase .data) rfl hd hdata hall
    rw [State.setPhase_dbuf, State.setPhase_dcnt, hbuf, hcnt, List.nil_append, Nat.zero_add] at hissue
    rw [hs, hissue]
    rfl
  · obtain rfl : data = [] := by
      refine List.length_eq_zero_iff.mp (hlen.trans ?_)
      split
      · exact hz ‹_›
      · rfl
    have hsame : s.setData s.dbuf s.dcnt = s := rfl
    rw [hbuf, hcnt] at hsame
    rw [hs, List.length_nil, hsame]
    rfl

/-! ### The registers hold the command that was encoded -/

theorem commandOf_eq_commandFrom (s : State) (k : Kind) : s.commandOf k = commandFrom s.sel s.operand s.dbuf k := by
  cases k <;> rfl

/-- A command reads no operand beyond its argument bytes (40_sequencer R400). -/
theorem commandFrom_congr {f g : Nat → Coord} {k : Kind} (h : ∀ j, 2 * j + 1 < argCount k → f j = g j) (sel : Byte)
    (data : List Byte) : commandFrom sel f data k = commandFrom sel g data k := by
  cases k with
  | clrerr | getcfg | setdm => rfl
  | setgeom | pset | pget => rw [commandFrom, commandFrom, h 0 (by decide), h 1 (by decide)]
  | rfill | rset | rget =>
    rw [commandFrom, commandFrom, h 0 (by decide), h 1 (by decide), h 2 (by decide), h 3 (by decide)]

theorem commandOf_loaded {s : State} {sel : Byte} {a : Vector Byte 8} {k : Kind} {bytes : List Byte}
    (ha : a.toList.take (argCount k) = bytes.take (argCount k)) :
    (s.loaded sel a (argCount k) (bytes.drop (argCount k))).commandOf k =
      commandFrom sel (operandAt bytes) (bytes.drop (argCount k)) k := by
  rw [commandOf_eq_commandFrom]
  refine commandFrom_congr (fun j hj => ?_) sel _
  rw [← le16_commandBytes _ (argCount_le k) hj]
  simp only [State.loaded, ha, List.take_append_drop]
  rfl

theorem dataLength_commandOf {s : State} {k : Kind} :
    dataLength s.gw s.gh (s.commandOf k) = if k = .rset ∧ validate k s = none then s.dataCount else 0 := by
  cases k with
  | rset => simp [dataLength, State.commandOf, rsetCount, validate, State.dataCount]
  | clrerr | getcfg | setdm | setgeom | pset | pget | rfill | rget => rfl

theorem checkOperands_congr {s t : State} (h : SameStore s t) (i : Instr) : checkOperands t i = checkOperands s i := by
  obtain ⟨-, hgw, hgh, hcfg, -⟩ := State.control_eq_iff.mp h.2
  cases i <;> simp only [checkOperands, hgw, hgh, hcfg]

theorem loaded_sameStore (s : State) (sel : Byte) (a : Vector Byte 8) (n : Nat) (data : List Byte) :
    SameStore s (s.loaded sel a n data) := ⟨rfl, rfl⟩

theorem validate_setData (k : Kind) (s : State) (data : List Byte) (n : Nat) :
    validate k (s.setData data n) = validate k s := by
  cases k <;> rfl

/-- An outcome `o` in which the transfers of command `i` from `s` have ended: `t` is `s` with the command in its registers,
and its validation answered an error, or it is pending in Exec (40_sequencer R410, R411). -/
def EndsTransfers (s : State) (i : Instr) (o : Host.Outcome State Fault Refusal) : Prop :=
  ∃ k t, SameStore s t ∧ t.err = s.err ∧ t.rq = [] ∧ t.hazard = false ∧
    ((∃ e, checkOperands s i = some e ∧ o = .next (rejectCommand k e t)) ∨
      (checkOperands s i = none ∧ (enterExec t).pendingCommand = some i ∧ o = .next (enterExec t)))

/-- With the selector and the arguments in the registers, the data bytes end the transfers. -/
theorem endsTransfers_loaded {s : State} {sel : Byte} {a : Vector Byte 8} {k : Kind} {data : List Byte} {i : Instr}
    (hd : s.pollDue = false) (hk : kindOf s.cfg.rgetSupported sel = some k)
    (hcommand : (s.loaded sel a (argCount k) data).commandOf k = i) (hdata : data.length = dataLength s.gw s.gh i) :
    EndsTransfers s i (issue (data.map .wrData) (argsComplete k (s.loaded sel a (argCount k) []))) := by
  have hcheck : checkOperands s i = validate k (s.loaded sel a (argCount k) data) := by
    rw [← checkOperands_congr (loaded_sameStore s sel a (argCount k) data), ← hcommand, checkOperands_commandOf]
  have hcount : data.length = if k = .rset ∧ validate k (s.loaded sel a (argCount k) data) = none
      then (s.loaded sel a (argCount k) data).dataCount else 0 := by
    rw [hdata, ← hcommand]
    exact dataLength_commandOf
  refine ⟨k, s.loaded sel a (argCount k) data, loaded_sameStore _ _ _ _ _, rfl, rfl, rfl, ?_⟩
  rw [hcheck]
  cases hv : validate k (s.loaded sel a (argCount k) data) with
  | some e =>
    rw [hv] at hcount
    obtain rfl : data = [] := List.length_eq_zero_iff.mp (hcount.trans (if_neg (by simp)))
    refine Or.inl ⟨e, rfl, ?_⟩
    rw [argsComplete, hv]
    rfl
  | none =>
    simp only [hv, and_true] at hcount
    refine Or.inr ⟨rfl, ?_, ?_⟩
    · rw [← hcommand]
      exact pendingCommand_eq_commandOf (s := enterExec _) hk hv hcount
    · exact issue_data_argsComplete (s := s.loaded sel a (argCount k) []) hd rfl rfl
        ((validate_setData k _ data data.length).symm.trans hv) hcount

/-- After WR_CMD of its selector, the other bytes of a command's code end its transfers. -/
theorem endsTransfers_beginCommand {s : State} {sel : Byte} {bytes : List Byte} {i : Instr} (hd : s.pollDue = false)
    (hdecode : decode s.cfg s.gw s.gh (.command (sel :: bytes)) = .ok i) :
    EndsTransfers s i (issue (bytes.map .wrData) (beginCommand sel s)) := by
  obtain ⟨k, hk, hlen, hik⟩ := decode_command_ok_iff.mp hdecode
  obtain ⟨a, ha, hargs⟩ := issue_arguments_beginCommand (args := bytes.take (argCount k)) hd hk
    (by rw [List.length_take]; omega)
  have hissue : issue (bytes.map .wrData) (beginCommand sel s) =
      issue ((bytes.drop (argCount k)).map .wrData) (argsComplete k (s.loaded sel a (argCount k) [])) := by
    rw [← issue_append hargs, ← List.map_append, List.take_append_drop]
  rw [hissue]
  exact endsTransfers_loaded hd hk ((commandOf_loaded ha).trans hik.symm) (by rw [List.length_drop]; omega)

/-- From Idle, a command's transfers begin it with its selector and write its other bytes (30_encoding R350). -/
theorem issue_transfers {s : State} {i : Instr} (hidle : s.phase = .idle) (hi : isCommand i = true) :
    ∃ sel bytes, encode s.cfg i = .command (sel :: bytes) ∧
      issue (transfers s.cfg i) s = issue (bytes.map .wrData) (beginCommand sel (notePoll .wrCmd s)) := by
  have hcode : ∃ sel bytes, encode s.cfg i = .command (sel :: bytes) := by
    cases i with
    | clrerr | getcfg | setdm | setgeom | pset | pget | rfill | rset | rget => exact ⟨_, _, rfl⟩
    | rdStatus | wrCmd | wrData | rdData | hpRd | hpWr => cases hi
  obtain ⟨sel, bytes, hcode⟩ := hcode
  refine ⟨sel, bytes, hcode, ?_⟩
  simp only [transfers, hcode]
  exact issue_cons (i := .wrCmd sel) (execWrCmd_idle hidle) _

/-- Settles O11: the bytes of the code load the registers, which then hold what the code decodes to. -/
theorem transfersReachExec : Obligations.TransfersReachExec := by
  intro s i hidle hi hwf
  obtain ⟨sel, bytes, hcode, hissue⟩ := issue_transfers hidle hi
  have hnote := notePoll_sameStore .wrCmd s
  have herr : (notePoll .wrCmd s).err = s.err := congrArg Engine.err (notePoll_keeps .wrCmd s).1
  have hdecode := decode_encode_command hi hwf
  rw [hcode] at hdecode
  obtain ⟨-, hgw, hgh, hcfg, -⟩ := State.control_eq_iff.mp hnote.2
  rw [← hcfg, ← hgw, ← hgh] at hdecode
  obtain ⟨k, t, hstore, hterr, hrq, hhazard, hend⟩ :=
    endsTransfers_beginCommand (notePoll_pollDue (op := .wrCmd) (by simp [hidle])) hdecode
  obtain ⟨hplanes, hcontrol⟩ := hnote.trans hstore
  obtain ⟨hdm, hgw, hgh, -⟩ := State.control_eq_iff.mp hcontrol
  rw [checkOperands_congr hnote] at hend
  rw [herr] at hterr
  rw [hissue]
  rcases hend with ⟨e, he, hx⟩ | ⟨hnone, hpending, hx⟩
  · refine ⟨_, hx, hplanes, hdm, hgw, hgh, hrq, rfl, fun hn => ?_, fun e' he' => ⟨rfl, rfl, fun hs => ?_⟩⟩
    · rw [he] at hn
      cases hn
    · obtain rfl : e = e' := Option.some.inj (he.symm.trans he')
      exact if_neg (by rw [hterr, hs]; decide)
  · refine ⟨_, hx, hplanes, hdm, hgw, hgh, hrq, hhazard, fun _ => ⟨rfl, hpending, hterr⟩, fun e he => ?_⟩
    rw [hnone] at he
    cases he

/-! ### RSET's data bytes -/

theorem rangeColour_map_mask (data : List Byte) (ls f : Nat) :
    rangeColour (data.map (· &&& 0x0F)) ls f = rangeColour data ls f := by
  have hmask : ∀ b : Byte, dataColour (b &&& 0x0F) = dataColour b := by decide
  have hget : (data.map (· &&& 0x0F)).getD (f - ls) 0 = data.getD (f - ls) 0 &&& 0x0F :=
    List.getD_map data 0 (· &&& 0x0F)
  rw [rangeColour, hget, hmask, rangeColour]

theorem setRange_map_mask (data : List Byte) (ls le : Nat) :
    setRange (data.map (· &&& 0x0F)) ls le = setRange data ls le := by
  funext s
  simp only [setRange, rangeColour_map_mask]

/-- Settles O32: the colours of the range are the same, and so is the number of data bytes. -/
theorem rsetIgnoresUpperBits : Obligations.RsetIgnoresUpperBits := by
  intro s x1 y1 x2 y2 data
  simp only [exec, execRset, List.foldl_map, List.length_map, setRange_map_mask]

/-! ### The pseudo-instructions -/

theorem ascending_of_le {lo hi : Nat} (h : hi ≤ lo) : ascending lo hi = [] := by
  rw [ascending, Nat.sub_eq_zero_of_le h, List.range'_zero]

theorem ascending_of_lt {lo hi : Nat} (h : lo < hi) : ascending lo hi = lo :: ascending (lo + 1) hi := by
  rw [ascending, ascending, show hi - lo = hi - (lo + 1) + 1 by omega, List.range'_succ]

/-- RECT's first row, and the rows after it (30_encoding R361). -/
theorem assemble_rect_of_le (cfg : Config) (gw gh : Coord) (c : Colour) (x1 x2 : Coord) {y1 y2 : Coord}
    (h : y1.toNat ≤ y2.toNat) :
    assemble cfg gw gh (.rect c x1 y1 x2 y2) =
      assemble cfg gw gh (.instr (.rfill c x1 y1 x2 y1)) ++ [.waitRdy] ++
        (ascending (y1.toNat + 1) (y2.toNat + 1)).flatMap fun y =>
          expandInstr cfg (.rfill c x1 (BitVec.ofNat 16 y) x2 (BitVec.ofNat 16 y)) ++ [.waitRdy] := by
  simp only [assemble, ascending_of_lt (Nat.lt_succ_of_le h), List.flatMap_cons, BitVec.ofNat_toNat, BitVec.setWidth_eq]

/-- Settles O57: RECT's rows from y1 to y2, the first taken off; y1 + 1 does not wrap when another row follows. -/
theorem pseudoInstructionsExpand : Obligations.PseudoInstructionsExpand := by
  intro cfg gw gh c x1 y1 x2 y2
  refine ⟨by simp only [assemble], fun h => ?_, fun hle hne => ?_, ?_⟩
  · simp only [assemble, ascending_of_le h, List.flatMap_nil]
  · have hlt : y1.toNat < y2.toNat := Nat.lt_of_le_of_ne hle (mt BitVec.eq_of_toNat_eq hne)
    have hnext : (y1 + 1).toNat = y1.toNat + 1 := by bv_omega
    rw [assemble_rect_of_le cfg gw gh c x1 x2 hle, ← hnext]
    rfl
  · rw [assemble_rect_of_le cfg gw gh c x1 x2 le_rfl, ascending_of_le le_rfl, List.flatMap_nil, List.append_nil]

end Sys2Proof.Machine

/-!
PROOFS. The sequencer (40_sequencer): the engine's step and how long it can wait (R415, R416), what Validate answers (R411),
and the next state of each bus operation (R401-R406).
-/

namespace Sys2Proof.Machine

/-! ### Turns -/

theorem fetch_engine {s : State} (hm : s.engineMoves = true) : fetch s = fetchEngine s.popTurn := by
  simp [fetch, hm]

theorem fetchEngine_pending {s : State} {i : Instr} (hi : s.pendingCommand = some i) : fetchEngine s = .run i s := by
  simp only [fetchEngine, hi]

/-- Settles O4: the engine's fetch, a used-up turn leaving the pending command as it was. -/
theorem engineStepRunsPendingCommand : Obligations.EngineStepRunsPendingCommand := fun s _ hm hi =>
  step_of_fetch_run ((fetch_engine hm).trans (fetchEngine_pending (s := s.popTurn) hi))

/-- Whatever a step does, it uses up one listed turn, if any is listed (log entry 4). -/
theorem step_sched {s t : State} (h : step s = .next t) : t.sched = s.sched.tail := by
  rcases step_next h with ⟨i, u, hf, hx⟩ | hf
  · obtain ⟨-, -, -, -, hsched⟩ := controlRegisterWriters i u t hx
    rw [hsched]
    rcases fetch_run hf with ⟨-, -, rfl⟩ | ⟨-, ⟨c, rest, -, -, rfl⟩ | ⟨rest, -, -, rfl⟩⟩
    · rfl
    · rfl
    · split <;> rfl
  · rcases fetch_goOn hf with ⟨-, ⟨-, rfl⟩ | ⟨rest, -, rfl⟩⟩ <;> rfl

/-- In Exec only a listed turn can hold the engine back (40_sequencer R416). -/
theorem sched_ne_nil_of_waiting {s : State} (hp : s.phase = .exec) (hm : s.engineMoves = false) : s.sched ≠ [] := by
  intro hs
  simp [State.engineMoves, State.turn, hp, hs] at hm

/-- Settles O6: an engine that waits has a turn listed, and the step uses it up. -/
theorem engineWaitsFinitely : Obligations.EngineWaitsFinitely := by
  intro s t hp h
  cases hm : s.engineMoves with
  | true => exact Or.inl rfl
  | false =>
    have hne := sched_ne_nil_of_waiting hp hm
    have hpos : 0 < s.sched.length := List.length_pos_iff.mpr hne
    refine Or.inr ⟨hne, ?_⟩
    rw [step_sched h, List.length_tail]
    omega

/-! ### Validation -/

theorem geomCheck_eq (n : Nat) (w h : Coord) :
    geomCheck n w h =
      if w.toNat % 8 = 0 ∧ 8 ≤ w.toNat ∧ 1 ≤ h.toNat ∧ w.toNat / 8 * h.toNat ≤ n then none else some .badGeom := by
  simp only [geomCheck, geomLegal, decide_eq_true_eq]

theorem pixelCheck_eq (gw gh x y : Coord) :
    pixelCheck gw gh x y = if x.toNat < gw.toNat ∧ y.toNat < gh.toNat then none else some .oob := by
  simp only [pixelCheck, inBounds, decide_eq_true_eq]

/-- The range check, the order of its ends put the legal way round (44_range R600). -/
theorem rangeCheck_eq (gw gh x1 y1 x2 y2 : Coord) :
    rangeCheck gw gh x1 y1 x2 y2 =
      if x1.toNat < gw.toNat ∧ y1.toNat < gh.toNat ∧ x2.toNat < gw.toNat ∧ y2.toNat < gh.toNat then
        if flat gw x1 y1 ≤ flat gw x2 y2 then none else some .badRange
      else some .oob := by
  simp only [rangeCheck, inBounds, Bool.and_eq_true, decide_eq_true_eq, and_assoc, ← not_lt (a := flat gw x2 y2), ite_not]

/-- Settles O43: each kind's check, on the operands of the argument registers. -/
theorem validateChecksOperands : Obligations.ValidateChecksOperands := by
  rintro s _ _ _ _ rfl rfl rfl rfl
  refine ⟨rfl, rfl, rfl, geomCheck_eq _ _ _, fun k hk => ?_, fun k hk => ?_⟩
  · rcases hk with rfl | rfl <;> exact pixelCheck_eq _ _ _ _
  · rcases hk with rfl | rfl | rfl <;> exact rangeCheck_eq _ _ _ _ _ _

/-- A legal RSET takes at least one data byte (30_encoding R315). -/
theorem dataCount_ne_zero {s : State} (hv : validate .rset s = none) : s.dataCount ≠ 0 := by
  have horder := rangeCheck_none_order hv
  rw [State.dataCount, rangeLength]
  omega

/-! ### Reads of STATUS and of the result queue -/

/-- Settles O40: the poll is done exactly when the STATUS read had BUSY = 0. -/
theorem rdStatusReturnsStatus : Obligations.RdStatusReturnsStatus := by
  intro s
  by_cases hp : s.phase = .exec
  · simp [exec, execRdStatus, State.busyFlag, State.reply, hp]
  · simp [exec, execRdStatus, State.busyFlag, State.reply, State.setPollDue, hp]

theorem execRdData_cons {s : State} {b : Byte} {rest : List Byte} (hq : s.rq = b :: rest) :
    execRdData s = .next ((s.setRq rest).reply b) := by
  simp only [execRdData, hq]

theorem execRdData_nil {s : State} (hq : s.rq = []) :
    execRdData s = .next ((raiseError .rdData .underrun s).reply 0x00) := by
  simp only [execRdData, hq]

/-- Settles O45: the two shapes of the result queue. -/
theorem rdDataPopsOrUnderruns : Obligations.RdDataPopsOrUnderruns := fun _ =>
  ⟨fun _ _ hq => execRdData_cons hq, fun hq => execRdData_nil hq⟩

/-! ### Writes of a selector -/

/-- In Exec a write raises BUSY, which records a violation of R820 itself. -/
theorem notePoll_of_exec {op : Op} {s : State} (h : s.phase = .exec) : notePoll op s = s := by
  simp [notePoll, State.busyFlag, h]

theorem execWrCmd_exec {b : Byte} {s : State} (h : s.phase = .exec) :
    execWrCmd b s = .next (raiseError .wrCmd .busy s) := by
  simp [execWrCmd, notePoll_of_exec h, State.busyFlag, h]

/-- In Collect and in Data a selector aborts the command in progress (40_sequencer R402). -/
theorem execWrCmd_collecting {b : Byte} {s : State} (h : s.phase = .collect ∨ s.phase = .data)
    (hd : s.pollDue = false) : execWrCmd b s = .next (beginCommand b (raiseError .wrCmd .abort s)) := by
  rcases h with h | h <;> simp [execWrCmd, notePoll_of_not_due hd, State.busyFlag, State.collFlag, h]

/-- A legal selector's next state where no poll is due: one is due after it exactly when it is the whole command. -/
theorem beginCommand_legal_eq {s : State} {sel : Byte} {k : Kind} (hk : kindOf s.cfg.rgetSupported sel = some k)
    (hd : s.pollDue = false) :
    beginCommand sel s =
      { s with rq := [], argc := 0, dbuf := [], dcnt := 0, hazard := false, sel := sel
               phase := if argCount k = 0 then .exec else .collect, pollDue := decide (argCount k = 0) } := by
  rw [beginCommand_legal hk]
  by_cases h0 : argCount k = 0
  · simp [h0, enterExec_eq, State.loaded]
  · simp [h0, State.loaded, State.setPhase, hd]

/-- A reserved selector's next state: the registers emptied, BADSEL raised, Idle (30_encoding R320). -/
theorem beginCommand_reserved_eq {s : State} {sel : Byte} (hk : kindOf s.cfg.rgetSupported sel = none) :
    beginCommand sel s =
      { s with rq := [], argc := 0, dbuf := [], dcnt := 0, hazard := false, phase := .idle, err := true
               ecode := if s.err then s.ecode else .badSel, faults := ⟨.wrCmd, .error .badSel⟩ :: s.faults } := by
  rw [beginCommand_reserved hk, raiseError_eq, clearProgress_eq]
  rfl

/-- Settles O41: BUSY in Exec; elsewhere the selector's effect, in Collect and Data on a state with ABORT raised, so that
BADSEL does not replace its code. -/
theorem wrCmdBeginsCommand : Obligations.WrCmdBeginsCommand := by
  refine fun s b => ⟨execWrCmd_exec, fun hp hd => ?_, fun hp hd => ?_⟩
  · have hx : exec (.wrCmd b) s = .next (beginCommand b s) :=
      (execWrCmd_idle hp).trans (by rw [notePoll_of_not_due hd])
    refine ⟨fun k hk => ?_, fun hk => ?_⟩
    · rw [hx, beginCommand_legal_eq hk hd]
    · rw [hx, beginCommand_reserved_eq hk]
  · have hx : exec (.wrCmd b) s = .next (beginCommand b (raiseError .wrCmd .abort s)) := execWrCmd_collecting hp hd
    refine ⟨fun k hk => ?_, fun hk => ?_⟩
    · rw [hx, beginCommand_legal_eq (s := raiseError .wrCmd .abort s) hk hd, raiseError_eq]
    · rw [hx, beginCommand_reserved_eq (s := raiseError .wrCmd .abort s) hk, raiseError_eq, if_pos rfl]

/-! ### Writes of an argument or a data byte -/

theorem execWrData_exec {b : Byte} {s : State} (h : s.phase = .exec) :
    execWrData b s = .next (raiseError .wrData .busy s) := by
  simp only [execWrData, notePoll_of_exec h, h]

/-- An argument byte lands in its register while one is left (10_state R130). -/
theorem storeArg_eq {b : Byte} {s : State} (h : s.argc < 8) :
    storeArg b s = { s with arg := s.arg.set s.argc b, argc := s.argc + 1 } := by
  simp [storeArg, State.setArgs, Vector.setIfInBounds, Array.setIfInBounds, h]

theorem argsComplete_reject {k : Kind} {s : State} {e : ErrCode} (hv : validate k s = some e) :
    argsComplete k s = rejectCommand k e s := by
  simp only [argsComplete, hv]

theorem argsComplete_rset {s : State} (hv : validate .rset s = none) : argsComplete .rset s = s.setPhase .data := by
  simp [argsComplete, hv, dataCount_ne_zero hv]

theorem argsComplete_of_ne_rset {k : Kind} {s : State} (hv : validate k s = none) (hk : k ≠ .rset) :
    argsComplete k s = enterExec s := by
  simp [argsComplete, hv, hk]

/-- Settles O42: BUSY in Exec, XDATA in Idle, a stored byte in Collect and Data, and after the last one the end of the
arguments or of the data. -/
theorem wrDataFeedsCommand : Obligations.WrDataFeedsCommand := by
  refine fun s b => ⟨execWrData_exec, fun hp hd => ?_, fun hp hd k h8 u hk hu => ?_, fun hp hd u hu => ?_⟩
  · exact (execWrData_idle hp).trans (by rw [notePoll_of_not_due hd, raiseError_eq])
  · have hx := exec_wrData_collect (b := b) hp hd hk
    rw [storeArg_eq h8, ← hu] at hx
    refine ⟨fun hmore => by rw [hx, if_neg hmore], fun hlast => ?_⟩
    rw [hx, if_pos hlast]
    refine ⟨fun e hv => ?_, fun hv hr => ?_, fun hv hr => ?_⟩
    · rw [argsComplete_reject hv, rejectCommand_eq, hu]
    · subst hr
      rw [argsComplete_rset hv]
      rfl
    · rw [argsComplete_of_ne_rset hv hr]
      rfl
  · have hx := exec_wrData_data (b := b) hp hd
    rw [show storeData b s = u from hu.symm] at hx
    refine ⟨fun hmore => ?_, fun hlast => ?_⟩
    · rw [hx, if_neg hmore]
    · rw [hx, if_pos hlast]
      rfl

/-! ### The host plane port -/

theorem hostAccess_ok {off : Nat} {s u : State} (hport : s.cfg.hostPlanePort = true) (hoff : off < s.cfg.planeBytes) :
    hostAccess off s u = .next u := by
  rw [hostAccess, if_pos hport, if_pos hoff]

theorem hostAccess_noPort {off : Nat} {s u : State} (hport : s.cfg.hostPlanePort = false) :
    hostAccess off s u = .refused .noHostPlanePort := by
  simp [hostAccess, hport]

theorem hostAccess_noByte {off : Nat} {s u : State} (hport : s.cfg.hostPlanePort = true)
    (hoff : s.cfg.planeBytes ≤ off) : hostAccess off s u = .fault .planeOffset := by
  rw [hostAccess, if_pos hport, if_neg (Nat.not_lt.mpr hoff)]

theorem execHpRd_of_ne_idle {p : Plane} {off : Nat} {s : State} (h : s.phase ≠ .idle) :
    execHpRd p off s =
      hostAccess off s ((s.logFault .hpRd .planeHazard).reply (Config.freeByte s.freeIdx)).nextFree := by
  rw [execHpRd, if_neg h]

theorem execHpWr_of_ne_idle {p : Plane} {off : Nat} {v : Byte} {s : State} (h : s.phase ≠ .idle) :
    execHpWr p off v s = hostAccess off s
      (((s.logFault .hpWr .planeHazard).putByte p off (Config.freeByte s.freeIdx)).setHazard true).nextFree := by
  rw [execHpWr, if_neg h]

/-- Settles O46: the plane byte in Idle, a free byte elsewhere. -/
theorem hpRdReturnsByte : Obligations.HpRdReturnsByte := by
  refine fun s p off hport hoff => ⟨fun hp => ?_, fun hp => ⟨Config.freeByte s.freeIdx, ?_⟩⟩
  · exact (execHpRd_idle hp).trans (hostAccess_ok hport hoff)
  · exact (execHpRd_of_ne_idle hp).trans (hostAccess_ok hport hoff)

/-- Storing a byte leaves every other byte of every plane (10_state R101). -/
theorem State.planeByte_putByte_ne {s : State} {p : Plane} (h : memWf (s.planes.get p)) (off : Nat) (v : Byte) {r : Plane}
    {x : Nat} (hx : ¬(r = p ∧ x = off)) : (s.putByte p off v).planeByte r x = s.planeByte r x :=
  (State.planeByte_putByte h off v r x).trans (if_neg hx)

/-- Settles O47: one stored byte, the given one in Idle and a free one elsewhere. -/
theorem hpWrStoresByte : Obligations.HpWrStoresByte := by
  refine fun s p off v hplanes hport hoff => ⟨fun hp => ?_, fun hp => ?_⟩
  · refine ⟨s.putByte p off v, (execHpWr_idle hp).trans (hostAccess_ok hport hoff), ?_, fun r x hx => ?_, rfl⟩
    · exact (State.planeByte_putByte (hplanes p).1 off v p off).trans (if_pos ⟨rfl, rfl⟩)
    · exact State.planeByte_putByte_ne (hplanes p).1 off v hx
  · refine ⟨_, (execHpWr_of_ne_idle hp).trans (hostAccess_ok hport hoff), fun r x hx => ?_, rfl⟩
    exact State.planeByte_putByte_ne (s := s.logFault .hpWr .planeHazard) (hplanes p).1 off _ hx

/-- Settles O48: without the port, and at an offset that names no byte, both accesses stop before any effect. -/
theorem hostPlanePortStops : Obligations.HostPlanePortStops := fun _ _ _ _ =>
  ⟨fun hport => ⟨hostAccess_noPort hport, hostAccess_noPort hport⟩,
    fun hport hoff => ⟨hostAccess_noByte hport hoff, hostAccess_noByte hport hoff⟩⟩

end Sys2Proof.Machine

/-!
PROOFS. The datapath (41_datapath): the bits of the masked read-modify-write, of Gather and of Pack; the addresses and the
split of a range; the plane accesses of the range walks.
-/

namespace Sys2Proof.Machine

/-! ### Bits -/

theorem combine_getLsbD (m : DrawMode) (o d : Byte) (j : Nat) :
    (combine m o d).getLsbD j = combineBit m (o.getLsbD j) (d.getLsbD j) := by
  cases m with
  | replace => rfl
  | and => exact BitVec.getLsbD_and
  | or => exact BitVec.getLsbD_or
  | xor => exact BitVec.getLsbD_xor

/-- Inside the mask the draw mode on the two bits, outside it the old bit (41_datapath R461). -/
theorem mrmw_getLsbD (m : DrawMode) (o d mask : Byte) {j : Nat} (hj : j < 8) :
    (mrmw m o d mask).getLsbD j =
      if mask.getLsbD j then combineBit m (o.getLsbD j) (d.getLsbD j) else o.getLsbD j := by
  rw [mrmw, BitVec.getLsbD_or, BitVec.getLsbD_and, BitVec.getLsbD_and, BitVec.getLsbD_not, combine_getLsbD,
    decide_eq_true hj]
  cases mask.getLsbD j <;> simp

/-- The data bits under which a draw mode keeps the old bit (41_datapath R461). -/
theorem combineBit_neutral {m : DrawMode} {d : Bool} (h : (m = .and ∧ d = true) ∨ ((m = .or ∨ m = .xor) ∧ d = false))
    (b : Bool) : combineBit m b d = b := by
  rcases h with ⟨rfl, rfl⟩ | ⟨rfl | rfl, rfl⟩
  · exact Bool.and_true b
  · exact Bool.or_false b
  · exact Bool.xor_false b

/-- Settles O35: the bits of MRMW, and the draw modes' neutral data bits. -/
theorem mrmwActsBitwise : Obligations.MrmwActsBitwise := by
  intro m o d mask j hj
  refine ⟨mrmw_getLsbD m o d mask hj, fun h => ?_⟩
  rw [mrmw_getLsbD m o d mask hj, combineBit_neutral h, ite_self]

/-- Gather puts plane p's bit in bit p-1 of the colour (41_datapath R456). -/
theorem planeBit_gather (b : Quad Bool) (p : Plane) : planeBit (gather b) p = b.get p := by
  obtain ⟨b1, b2, b3, b4⟩ := b
  revert b1 b2 b3 b4
  cases p <;> decide

/-- A colour is its four plane bits (00_scope R12). -/
theorem colour_ext {c d : Colour} (h : ∀ p, planeBit c p = planeBit d p) : c = d := by
  refine BitVec.eq_of_getLsbD_eq fun i hi => ?_
  obtain ⟨p, rfl⟩ : ∃ p : Plane, p.bit = i := by
    match i, hi with
    | 0, _ => exact ⟨.p1, rfl⟩
    | 1, _ => exact ⟨.p2, rfl⟩
    | 2, _ => exact ⟨.p3, rfl⟩
    | 3, _ => exact ⟨.p4, rfl⟩
  exact h p

theorem gather_planeBit (c : Colour) : gather (Quad.ofFn fun p => planeBit c p) = c :=
  colour_ext fun p => by rw [planeBit_gather, Quad.get_ofFn]

theorem foldl_or_getLsbD {α : Type} (f : α → Byte) (l : List α) (a : Byte) (j : Nat) :
    (l.foldl (fun acc k => acc ||| f k) a).getLsbD j = (a.getLsbD j || l.any fun k => (f k).getLsbD j) := by
  induction l generalizing a with
  | nil => exact (Bool.or_false _).symm
  | cons k l ih => rw [List.foldl_cons, ih, BitVec.getLsbD_or, List.any_cons, Bool.or_assoc]

theorem flagByte_shift_getLsbD : ∀ b : Bool, ∀ i < 8, ∀ k < 8,
    (flagByte b <<< (7 - i)).getLsbD (7 - k) = (b && decide (i = k)) := by
  decide

/-- Lane k of a packed byte is colour k's bit (41_datapath R462). -/
theorem pack_getLsbD (p : Plane) (cs : Nat → Colour) {k : Nat} (hk : k < 8) :
    (pack p cs).getLsbD (7 - k) = planeBit (cs k) p := by
  rw [pack, foldl_or_getLsbD, BitVec.ofNat_eq_ofNat, BitVec.getLsbD_zero, Bool.false_or, Bool.eq_iff_iff,
    List.any_eq_true]
  constructor
  · rintro ⟨i, hi, hbit⟩
    rw [flagByte_shift_getLsbD _ i (List.mem_range.mp hi) k hk, Bool.and_eq_true, decide_eq_true_eq] at hbit
    obtain ⟨hbit, rfl⟩ := hbit
    exact hbit
  · intro hbit
    exact ⟨k, List.mem_range.mpr hk, by rw [flagByte_shift_getLsbD _ k hk k hk, hbit, decide_eq_true rfl]; rfl⟩

/-- Settles O36: Gather of a colour's plane bits, and of the lanes that Pack fills with them. -/
theorem unpackInvertsPack : Obligations.UnpackInvertsPack := by
  refine ⟨gather_planeBit, fun cs k hk => ?_⟩
  simp only [unpack, Quad.get_ofFn, pack_getLsbD _ cs hk, gather_planeBit]

/-! ### Addresses -/

/-- In a row whose length is a multiple of 8, a flat index keeps the pixel's byte and its lane (41_datapath R453). -/
theorem flat_div_mod {gw : Coord} (h8 : gw.toNat % 8 = 0) (x y : Coord) :
    flat gw x y / 8 = y.toNat * stride gw + x.toNat / 8 ∧ flat gw x y % 8 = x.toNat % 8 := by
  have hrow : y.toNat * gw.toNat = 8 * (y.toNat * stride gw) := by
    rw [Nat.mul_left_comm, stride, Nat.mul_div_cancel' (Nat.dvd_of_mod_eq_zero h8)]
  rw [flat, hrow]
  omega

/-- Settles O33: both parts of the address agree. -/
theorem flatAddressAgrees : Obligations.FlatAddressAgrees := by
  intro gw x y h8 _
  obtain ⟨hdiv, hmod⟩ := flat_div_mod h8 x y
  rw [bitAddr, flatAddr, hdiv, hmod]

theorem geomLegal_iff {n : Nat} {w h : Coord} :
    geomLegal n w h = true ↔ w.toNat % 8 = 0 ∧ 8 ≤ w.toNat ∧ 1 ≤ h.toNat ∧ stride w * h.toNat ≤ n :=
  decide_eq_true_iff

/-- Row-major places: column `a` of row `y` lies below `n` whole rows of `w`. -/
theorem row_place_lt {a w y n : Nat} (ha : a < w) (hy : y < n) : y * w + a < w * n := by
  rw [Nat.mul_comm y, Nat.mul_comm w n]
  exact Nat.mul_add_lt_mul_of_lt_of_lt hy ha

/-- Settles O34: a pixel's place among the screen's bytes and among its pixels, whose numbers PLANE_BYTES bounds. -/
theorem addressesStayInBounds : Obligations.AddressesStayInBounds := by
  intro n gw gh x y hlegal hx hy
  obtain ⟨h8, -, -, hbytes⟩ := geomLegal_iff.mp hlegal
  have hgw : gw.toNat = 8 * stride gw := (Nat.mul_div_cancel' (Nat.dvd_of_mod_eq_zero h8)).symm
  have hpixels : gw.toNat * gh.toNat = 8 * (stride gw * gh.toNat) := by rw [hgw, Nat.mul_assoc]
  have hcolumn : x.toNat / 8 < stride gw := Nat.div_lt_div_of_lt_of_dvd (Nat.dvd_of_mod_eq_zero h8) hx
  have hmax := gw.isLt
  exact ⟨by omega, row_place_lt hcolumn hy, hbytes, row_place_lt hx hy, by omega⟩

/-! ### The split of a range -/

theorem ascending_append {lo mid hi : Nat} (h : lo ≤ mid) (h' : mid ≤ hi) :
    ascending lo mid ++ ascending mid hi = ascending lo hi := by
  have happend := List.range'_append_1 (s := lo) (m := mid - lo) (n := hi - mid)
  rwa [show lo + (mid - lo) = mid by omega, show mid - lo + (hi - mid) = hi - lo by omega] at happend

/-- The pixels of consecutive bytes are consecutive (41_datapath R485). -/
theorem flatMap_bytes_ascending {a b : Nat} (h : a ≤ b) :
    (ascending a b).flatMap (fun k => ascending (8 * k) (8 * k + 8)) = ascending (8 * a) (8 * b) := by
  induction b, h using Nat.le_induction with
  | base => rw [ascending_of_le le_rfl, ascending_of_le le_rfl, List.flatMap_nil]
  | succ b h ih =>
    have hlast : ascending b (b + 1) = [b] := by rw [ascending_of_lt (Nat.lt_succ_self b), ascending_of_le le_rfl]
    rw [← ascending_append h (Nat.le_succ b), List.flatMap_append, ih, hlast, List.flatMap_singleton]
    exact ascending_append (by omega) (by omega)

/-- Head, interior and tail, one after the other, are the range (41_datapath R476). -/
theorem split_append {ls le : Nat} (h : ls ≤ le) :
    (split ls le).head ++ (split ls le).interior.flatMap (fun k => ascending (8 * k) (8 * k + 8)) ++
      (split ls le).tail = ascending ls (le + 1) := by
  rw [Split.head, Split.interior, Split.tail, split_eq]
  split
  · simp only [Nat.mul_div_cancel_left _ (show 0 < 8 by decide)]
    rw [flatMap_bytes_ascending (by omega), ascending_append (by omega) (by omega),
      ascending_append (by omega) (by omega)]
  · simp only [ascending_of_le le_rfl, List.flatMap_nil, List.append_nil]

/-- Settles O37: the parts join to the range; the rule's examples are computed. -/
theorem splitPartitionsRange : Obligations.SplitPartitionsRange :=
  ⟨fun _ _ => split_append, rfl, rfl, rfl, rfl, rfl, rfl, rfl, rfl⟩

/-! ### The plane accesses of the range walks -/

/-- From `s` to `t` the engine made `n` plane accesses, and DM is the same. -/
def Accesses (n : Nat) (s t : State) : Prop := t.dm = s.dm ∧ t.trace.length = s.trace.length + n

theorem Accesses.trans {m n : Nat} {s t u : State} (h : Accesses m s t) (h' : Accesses n t u) : Accesses (m + n) s u :=
  ⟨h'.1.trans h.1, by rw [h'.2, h.2, Nat.add_assoc]⟩

theorem planeRead_accesses (s : State) (p : Plane) (off : Nat) : Accesses 1 s (s.planeRead p off) := ⟨rfl, rfl⟩

theorem planeWrite_accesses (s : State) (p : Plane) (off : Nat) (v : Byte) : Accesses 1 s (s.planeWrite p off v) := by
  unfold State.planeWrite
  split <;> exact ⟨rfl, rfl⟩

/-- Steps of `n` accesses each, as long as DM is that of the start. -/
theorem foldl_accesses {α : Type} {n : Nat} {m : DrawMode} {step : State → α → State}
    (h : ∀ t a, t.dm = m → Accesses n t (step t a)) (l : List α) {s : State} (hs : s.dm = m) :
    Accesses (n * l.length) s (l.foldl step s) := by
  induction l generalizing s with
  | nil => exact ⟨rfl, rfl⟩
  | cons a l ih =>
    have hfirst := h s a hs
    rw [List.length_cons, Nat.mul_succ, Nat.add_comm]
    exact hfirst.trans (ih (hfirst.1.trans hs))

/-- A walk makes `m` accesses for each pixel of head and tail and `n` for each interior byte. -/
theorem overRange_accesses {m n ls le : Nat} {s : State} {pixel byte : Nat → State → State}
    (hp : ∀ t f, t.dm = s.dm → Accesses m t (pixel f t)) (hb : ∀ t k, t.dm = s.dm → Accesses n t (byte k t)) :
    (overRange ls le pixel byte s).trace.length = s.trace.length +
      m * ((split ls le).head.length + (split ls le).tail.length) + n * (split ls le).interior.length := by
  have hhead := foldl_accesses hp (split ls le).head rfl
  have hinterior := hhead.trans (foldl_accesses hb (split ls le).interior hhead.1)
  have htail := hinterior.trans (foldl_accesses hp (split ls le).tail hinterior.1)
  rw [overRange, htail.2]
  ring

/-- PixelWrite reads and writes its byte in each plane (41_datapath R465). -/
theorem pixelWrite_accesses (f : Nat) (c : Colour) (s : State) : Accesses 8 s (pixelWrite f c s) :=
  foldl_accesses (n := 2) (fun t p _ => (planeRead_accesses t p _).trans (planeWrite_accesses _ p _ _)) Plane.all rfl

/-- ByteWrite writes its byte in each plane, and reads it first except under Replace (41_datapath R467). -/
theorem byteWrite_accesses (k : Nat) (d : Quad Byte) (s : State) :
    Accesses (if s.dm = .replace then 4 else 8) s (byteWrite k d s) := by
  unfold byteWrite
  by_cases hm : s.dm = .replace
  · rw [if_pos hm]
    refine foldl_accesses (n := 1) (fun t p ht => ?_) Plane.all rfl
    rw [if_pos (ht.trans hm)]
    exact planeWrite_accesses t p k _
  · rw [if_neg hm]
    refine foldl_accesses (n := 2) (fun t p ht => ?_) Plane.all rfl
    rw [if_neg (ht ▸ hm)]
    exact (planeRead_accesses t p k).trans (planeWrite_accesses _ p k _)

/-- PixelRead and ByteRead read their byte in each plane (41_datapath R466, R468). -/
theorem readPlanes_accesses (pos : Nat) (s : State) : Accesses 4 s (readPlanes pos s) :=
  foldl_accesses (n := 1) (fun t p _ => planeRead_accesses t p pos) Plane.all rfl

theorem pushResult_accesses (s : State) (b : Byte) : Accesses 0 s (s.pushResult b) := ⟨rfl, rfl⟩

theorem pushPixel_accesses (f : Nat) (s : State) : Accesses 4 s (pushPixel f s) :=
  (readPlanes_accesses _ s).trans (pushResult_accesses _ _)

theorem pushByte_accesses (k : Nat) (s : State) : Accesses 4 s (pushByte k s) :=
  (readPlanes_accesses k s).trans (foldl_accesses (n := 0) (fun t _ _ => pushResult_accesses t _) (List.range 8) rfl)

/-- A writing walk's accesses, whatever its colours and bytes (44_range R610, R620). -/
theorem writeRange_accesses (ls le : Nat) (colour : Nat → Colour) (data : Nat → Quad Byte) (s : State) :
    (overRange ls le (fun f => pixelWrite f (colour f)) (fun k => byteWrite k (data k)) s).trace.length =
      s.trace.length + 8 * ((split ls le).head.length + (split ls le).tail.length) +
        (if s.dm = .replace then 4 else 8) * (split ls le).interior.length :=
  overRange_accesses (fun t f _ => pixelWrite_accesses f _ t) fun t k ht => ht ▸ byteWrite_accesses k _ t

/-- Settles O31: RFILL and RSET are one writing walk, RGET a reading one. -/
theorem rangeAccessCounts : Obligations.RangeAccessCounts := by
  intro s ls le _
  refine ⟨fun c => writeRange_accesses ls le _ _ s, fun data => writeRange_accesses ls le _ _ s, ?_⟩
  rw [getRange, overRange_accesses (fun t f _ => pushPixel_accesses f t) (fun t k _ => pushByte_accesses k t)]
  ring

end Sys2Proof.Machine

/-!
PROOFS. No access leaves the screen or the planes (41_datapath R480): what a command can touch on a legal or an empty
geometry, and that no step from a state that meets the invariant faults (10_state R140).
-/

namespace Sys2Proof.Machine

/-! ### Pixels and ranges on the screen -/

theorem pixelCheck_none {gw gh x y : Coord} (h : pixelCheck gw gh x y = none) :
    x.toNat < gw.toNat ∧ y.toNat < gh.toNat := by
  rw [pixelCheck_eq] at h
  split_ifs at h with hin
  exact hin

theorem rangeCheck_none_last {gw gh x1 y1 x2 y2 : Coord} (h : rangeCheck gw gh x1 y1 x2 y2 = none) :
    x2.toNat < gw.toNat ∧ y2.toNat < gh.toNat := by
  rw [rangeCheck_eq] at h
  split_ifs at h with hin _
  exact hin.2.2

/-- A pixel in bounds lies in a byte of the screen, and the screen in the planes; an empty geometry has no such pixel
(41_datapath R480). -/
theorem State.geomOk.pixel_byte_lt {s : State} (h : s.geomOk) {x y : Coord}
    (hin : x.toNat < s.gw.toNat ∧ y.toNat < s.gh.toNat) :
    flat s.gw x y / 8 < stride s.gw * s.gh.toNat ∧ stride s.gw * s.gh.toNat ≤ s.cfg.planeBytes := by
  obtain ⟨hx, hy⟩ := hin
  rcases h with ⟨hgw, -⟩ | hlegal
  · rw [hgw] at hx
    exact absurd hx (Nat.not_lt_zero _)
  · obtain ⟨-, hpos, hbytes, -⟩ := addressesStayInBounds _ _ _ _ _ hlegal hx hy
    rw [flatAddressAgrees _ _ _ (geomLegal_iff.mp hlegal).1 hx] at hpos
    exact ⟨hpos, hbytes⟩

/-! ### Bytes that a command leaves -/

/-- The planes are canonical, and at offset `off` they hold the bytes `b`. -/
def State.holdsAt (off : Nat) (b : Plane → Byte) (s : State) : Prop := s.canonical ∧ ∀ p, s.planeByte p off = b p

theorem State.holdsAt.congr {off : Nat} {b : Plane → Byte} {s t : State} (h : s.holdsAt off b)
    (ht : t.planes = s.planes) : t.holdsAt off b := by
  unfold State.holdsAt State.canonical State.planeByte
  rw [ht]
  exact h

theorem planeWrite_holdsAt {off pos : Nat} {b : Plane → Byte} {s : State} (h : s.holdsAt off b) (hpos : pos ≠ off)
    (p : Plane) (v : Byte) : (s.planeWrite p pos v).holdsAt off b :=
  ⟨State.canonical_planeWrite h.1 p pos v, fun r =>
    (State.planeByte_planeWrite_ne h.1 p pos v r off fun hr => hpos hr.2.symm).trans (h.2 r)⟩

theorem pixelWrite_holdsAt {off f : Nat} {b : Plane → Byte} {s : State} (h : s.holdsAt off b) (hf : f / 8 ≠ off)
    (c : Colour) : (pixelWrite f c s).holdsAt off b :=
  foldl_inv (P := State.holdsAt off b) (fun t p _ ht => planeWrite_holdsAt (s := t.planeRead p _) ht hf p _) h

theorem byteWrite_holdsAt {off k : Nat} {b : Plane → Byte} {s : State} (h : s.holdsAt off b) (hk : k ≠ off)
    (d : Quad Byte) : (byteWrite k d s).holdsAt off b := by
  refine foldl_inv (P := State.holdsAt off b) (fun t p _ ht => ?_) h
  split
  · exact planeWrite_holdsAt ht hk p _
  · exact planeWrite_holdsAt (s := t.planeRead p k) ht hk p _

/-- A writing walk leaves every byte after its last pixel's. -/
theorem overRange_holdsAt {off ls le : Nat} {b : Plane → Byte} (hle : le / 8 < off) {colour : Nat → Colour}
    {data : Nat → Quad Byte} {s : State} (h : s.holdsAt off b) :
    (overRange ls le (fun f => pixelWrite f (colour f)) (fun k => byteWrite k (data k)) s).holdsAt off b := by
  obtain ⟨hpixel, hbyte⟩ := split_le ls le
  exact overRange_inv (P := State.holdsAt off b)
    (fun f t hf ht => pixelWrite_holdsAt ht ((Nat.div_le_div_right (hpixel f hf)).trans_lt hle).ne _)
    (fun k t hk ht => byteWrite_holdsAt ht ((hbyte k hk).trans_lt hle).ne _) h

/-- A command that fails its validation leaves every byte, so only its effect matters. -/
theorem runCommand_holdsAt {k : Kind} {check : Option ErrCode} {top off : Nat} {effect : State → State}
    {b : Plane → Byte} {s t : State} (h : s.holdsAt off b) (he : check = none → (effect s).holdsAt off b)
    (hx : runCommand k check top effect s = .next t) : t.holdsAt off b := by
  rcases runCommand_next hx with ⟨e, -, rfl⟩ | ⟨hc, -, rfl⟩
  · exact h
  · exact he hc

theorem execRset_holdsAt {off : Nat} {b : Plane → Byte} {x1 y1 x2 y2 : Coord} {data : List Byte} {s t : State}
    (h : s.holdsAt off b)
    (hlast : rangeCheck s.gw s.gh x1 y1 x2 y2 = none → flat s.gw x2 y2 / 8 < off)
    (hx : execRset x1 y1 x2 y2 data s = .next t) : t.holdsAt off b := by
  unfold execRset at hx
  split at hx
  · cases hx
    exact foldl_inv (P := State.holdsAt off b) (step := fun u _ => raiseError .wrData .xdata u) (fun _ _ _ hu => hu) h
  · rename_i hv
    split at hx
    · exact runCommand_holdsAt h (fun _ => overRange_holdsAt (hlast hv) h) hx
    · cases hx

/-- No command changes a byte beyond the screen's (41_datapath R480). -/
theorem exec_command_holdsAt {i : Instr} {s t : State} {off : Nat} {b : Plane → Byte} (hgeom : s.geomOk)
    (hi : isCommand i = true) (hoff : stride s.gw * s.gh.toNat ≤ off) (h : s.holdsAt off b) (hx : exec i s = .next t) :
    t.holdsAt off b := by
  have hpixel {x y : Coord} (hv : pixelCheck s.gw s.gh x y = none) : flat s.gw x y / 8 < off :=
    (hgeom.pixel_byte_lt (pixelCheck_none hv)).1.trans_le hoff
  have hrange {x1 y1 x2 y2 : Coord} (hv : rangeCheck s.gw s.gh x1 y1 x2 y2 = none) : flat s.gw x2 y2 / 8 < off :=
    (hgeom.pixel_byte_lt (rangeCheck_none_last hv)).1.trans_le hoff
  cases i with
  | pset c x y => exact runCommand_holdsAt h (fun hv => pixelWrite_holdsAt h (hpixel hv).ne c) hx
  | rfill c x1 y1 x2 y2 => exact runCommand_holdsAt h (fun hv => overRange_holdsAt (hrange hv) h) hx
  | rset x1 y1 x2 y2 data => exact execRset_holdsAt h hrange hx
  | clrerr | getcfg | setdm | setgeom | pget | rget => exact h.congr (exec_planes_eq rfl hx)
  | rdStatus | wrCmd | wrData | rdData | hpRd | hpWr => cases hi

/-- Settles O38: the bytes a legal pixel or range names lie on the screen, and a command writes no others. -/
theorem commandsStayOnScreen : Obligations.CommandsStayOnScreen := by
  intro s t i hplanes hgeom hi hx p off hoff
  have hstart : s.holdsAt off fun p => s.planeByte p off := ⟨fun p => (hplanes p).1, fun _ => rfl⟩
  exact (exec_command_holdsAt hgeom hi hoff hstart hx).2 p

/-! ### A pending command answers a next state -/

theorem runCommand_answers {k : Kind} {check : Option ErrCode} {top : Nat} (effect : State → State) {s : State}
    (h : check = none → top < s.cfg.planeBytes) : ∃ t, runCommand k check top effect s = .next t := by
  cases check with
  | some e => exact ⟨_, rfl⟩
  | none => exact ⟨finish (effect s), if_pos (h rfl)⟩

theorem execSetgeom_answers (w h : Coord) (s : State) : ∃ t, execSetgeom w h s = .next t := by
  unfold execSetgeom
  split <;> exact ⟨_, rfl⟩

theorem execRset_answers {x1 y1 x2 y2 : Coord} {data : List Byte} {s : State}
    (hlast : rangeCheck s.gw s.gh x1 y1 x2 y2 = none → flat s.gw x2 y2 / 8 < s.cfg.planeBytes)
    (hdata : data.length = rsetCount s.gw s.gh x1 y1 x2 y2) : ∃ t, execRset x1 y1 x2 y2 data s = .next t := by
  unfold execRset
  split
  · exact ⟨_, rfl⟩
  · rename_i hv
    rw [rsetCount, if_pos hv] at hdata
    rw [if_pos hdata]
    exact runCommand_answers _ fun _ => hlast hv

/-- On a legal or an empty geometry a well-formed command neither faults nor is refused. -/
theorem exec_command_answers {i : Instr} {s : State} (hgeom : s.geomOk) (hi : isCommand i = true)
    (hwf : i.wf s.cfg s.gw s.gh = true) : ∃ t, exec i s = .next t := by
  have hexists {x y : Coord} (hin : x.toNat < s.gw.toNat ∧ y.toNat < s.gh.toNat) :
      flat s.gw x y / 8 < s.cfg.planeBytes := by
    obtain ⟨hbyte, hscreen⟩ := hgeom.pixel_byte_lt hin
    exact hbyte.trans_le hscreen
  cases i with
  | clrerr | getcfg | setdm => exact ⟨_, rfl⟩
  | setgeom w h => exact execSetgeom_answers w h s
  | pset c x y => exact runCommand_answers _ fun hv => hexists (pixelCheck_none hv)
  | pget x y => exact runCommand_answers _ fun hv => hexists (pixelCheck_none hv)
  | rfill c x1 y1 x2 y2 => exact runCommand_answers _ fun hv => hexists (rangeCheck_none_last hv)
  | rset x1 y1 x2 y2 data =>
    exact execRset_answers (fun hv => hexists (rangeCheck_none_last hv)) (beq_iff_eq.mp hwf)
  | rget x1 y1 x2 y2 => exact runCommand_answers _ fun hv => hexists (rangeCheck_none_last hv)
  | rdStatus | wrCmd | wrData | rdData | hpRd | hpWr => cases hi

/-- The pending command was decoded, so it is well formed (30_encoding R322). -/
theorem pendingCommand_wf {s : State} {i : Instr} (h : s.pendingCommand = some i) : i.wf s.cfg s.gw s.gh = true := by
  unfold State.pendingCommand at h
  split at h
  · rename_i j hj
    cases h
    exact (encodeOfDecode _ _ _ _ _ hj).2
  · cases h

/-! ### A bus operation answers a next state, or its port does not exist -/

theorem windowByte_lt {cfg : Config} {a : Nat} {w : Plane × Nat} (h : windowByte cfg a = .ok w) :
    w.2 < cfg.planeBytes := by
  unfold windowByte at h
  split at h
  · cases h
  · rename_i p hp
    cases h
    have hin : p ∈ Plane.all.filter (inWindow cfg a) := hp ▸ List.mem_singleton_self p
    have hwindow := of_decide_eq_true (List.mem_filter.mp hin).2
    dsimp only
    omega
  · cases h

/-- What a bus cycle can decode to: a port access, or an access to a plane byte that exists (20_memory R202). -/
theorem decodeBus_ok {cfg : Config} {c : BusCycle} {i : Instr} (h : decodeBus cfg c = .ok i) :
    i = .rdStatus ∨ i = .rdData ∨ (∃ b, i = .wrCmd b) ∨ (∃ b, i = .wrData b) ∨
      (∃ p off, off < cfg.planeBytes ∧ i = .hpRd p off) ∨ ∃ p off v, off < cfg.planeBytes ∧ i = .hpWr p off v := by
  cases c with
  | portRead a =>
    simp only [decodeBus] at h
    split_ifs at h <;> cases h <;> simp
  | portWrite a v =>
    simp only [decodeBus] at h
    split_ifs at h <;> cases h <;> simp
  | hostRead a =>
    simp only [decodeBus] at h
    cases hw : windowByte cfg a <;> rw [hw] at h <;> cases h
    simpa using windowByte_lt hw
  | hostWrite a v =>
    simp only [decodeBus] at h
    cases hw : windowByte cfg a <;> rw [hw] at h <;> cases h
    simpa using windowByte_lt hw

theorem execRdData_answers (s : State) : ∃ t, execRdData s = .next t := by
  cases hq : s.rq with
  | nil => exact ⟨_, execRdData_nil hq⟩
  | cons b rest => exact ⟨_, execRdData_cons hq⟩

theorem execWrCmd_answers (b : Byte) (s : State) : ∃ t, execWrCmd b s = .next t := by
  by_cases hp : s.phase = .exec
  · exact ⟨_, execWrCmd_exec hp⟩
  · obtain ⟨u, hx, -⟩ := execWrCmd_of_ne_exec b hp
    exact ⟨_, hx⟩

/-- In Collect the invariant gives SEL a kind, so that an argument is awaited (10_state R140). -/
theorem execWrData_answers {s : State} (h : s.Inv) (b : Byte) : ∃ t, execWrData b s = .next t := by
  obtain ⟨hengine, hcfg, -⟩ := notePoll_keeps .wrData s
  have hsel : (notePoll .wrData s).sel = s.sel := congrArg Engine.sel hengine
  simp only [execWrData, notePoll_phase, hcfg, hsel]
  cases hp : s.phase with
  | idle | data | exec => exact ⟨_, rfl⟩
  | collect =>
    obtain ⟨k, hk, -⟩ := (State.sequencerOk_collect hp).mp h.sequencer
    simp only [hk]
    exact ⟨_, rfl⟩

theorem hostAccess_answers {off : Nat} {s : State} (u : State) (hoff : off < s.cfg.planeBytes) :
    (∃ t, hostAccess off s u = .next t) ∨
      (hostAccess off s u = .refused .noHostPlanePort ∧ s.cfg.hostPlanePort = false) := by
  cases hport : s.cfg.hostPlanePort with
  | true => exact Or.inl ⟨u, hostAccess_ok hport hoff⟩
  | false => exact Or.inr ⟨hostAccess_noPort hport, rfl⟩

theorem exec_busCycle_answers {s : State} {c : BusCycle} {i : Instr} (h : s.Inv) (hc : decodeBus s.cfg c = .ok i) :
    (∃ t, exec i s = .next t) ∨ (exec i s = .refused .noHostPlanePort ∧ s.cfg.hostPlanePort = false) := by
  rcases decodeBus_ok hc with rfl | rfl | ⟨b, rfl⟩ | ⟨b, rfl⟩ | ⟨p, off, hoff, rfl⟩ | ⟨p, off, v, hoff, rfl⟩
  · exact Or.inl ⟨_, rfl⟩
  · exact Or.inl (execRdData_answers s)
  · exact Or.inl (execWrCmd_answers b s)
  · exact Or.inl (execWrData_answers h b)
  · exact hostAccess_answers _ hoff
  · exact hostAccess_answers _ hoff

/-! ### The step -/

theorem step_engine_answers {s : State} (h : s.Inv) (hm : s.engineMoves = true) : ∃ t, step s = .next t := by
  obtain ⟨i, hpending, hi, -⟩ := h.pendingCommand (engineMoves_exec hm)
  rw [engineStepRunsPendingCommand s i hm hpending]
  exact exec_command_answers (s := s.popTurn) h.geom hi (pendingCommand_wf hpending)

theorem fetchHost_foreign {s : State} {c : BusCycle} {rest : List HostEvent} {e : DecodeError}
    (hb : s.bus = .cycle c :: rest) (hc : decodeBus s.cfg c = .error e) : fetchHost s = .foreign e := by
  simp only [fetchHost, hb, hc]

theorem fetchHost_reset {s : State} {rest : List HostEvent} (hb : s.bus = .reset :: rest) :
    fetchHost s = .goOn (assertReset (s.setBus rest)) := by
  simp only [fetchHost, hb]

theorem step_of_fetch_foreign {s : State} {e : DecodeError} (h : fetch s = .foreign e) :
    step s = .refused (.notEngine e) := by
  rw [step, h]

/-- Settles O56: the engine's turn by the pending command, the host's by its first event. -/
theorem stepNeverFaults : Obligations.StepNeverFaults := by
  intro s h
  cases hm : s.engineMoves with
  | true => exact Or.inl (step_engine_answers h hm)
  | false =>
    obtain ⟨hcycle, hwait, hnone⟩ := hostStepRunsFirstEvent s hm
    match hb : s.bus with
    | [] => exact Or.inl ⟨_, hnone hb⟩
    | .waitRdy :: rest => exact Or.inl ⟨_, hwait rest hb⟩
    | .reset :: rest =>
      exact Or.inl ⟨_, step_of_fetch_goOn ((fetch_host hm).trans (fetchHost_reset (s := s.popTurn) hb))⟩
    | .cycle c :: rest =>
      cases hc : decodeBus s.cfg c with
      | error e =>
        have hf : fetch s = .foreign e := (fetch_host hm).trans (fetchHost_foreign (s := s.popTurn) hb hc)
        exact Or.inr (Or.inl ⟨e, step_of_fetch_foreign hf⟩)
      | ok i =>
        have hinv : (s.popTurn.setBus rest).Inv := h.congr rfl rfl rfl rfl
        rw [hcycle c rest i hb hc]
        exact (exec_busCycle_answers hinv hc).imp_right Or.inr

end Sys2Proof.Machine

/-!
PROOFS. The configuration commands (42_config): the whole next state of CLRERR, GETCFG, SETDM and SETGEOM.
-/

namespace Sys2Proof.Machine

/-- Settles O12: STATUS cleared, then the end of the Exec step. -/
theorem clrerrClearsStatus : Obligations.ClrerrClearsStatus := fun s =>
  congrArg Host.Outcome.next (finish_eq (s.setStatus false .none))

/-- Settles O13: one write of the result queue; the mode's byte is its code, zero extended. -/
theorem getcfgPushesRegisters : Obligations.GetcfgPushesRegisters := by
  intro s
  have hcode {m : DrawMode} (h : s.dm = m) : (DrawMode.bits s.dm).setWidth 8 = (DrawMode.bits m).setWidth 8 := by rw [h]
  exact ⟨(DrawMode.bits s.dm).setWidth 8, execGetcfg_eq s, hcode, hcode, hcode, hcode⟩

/-- Settles O14: DM written, then the end of the Exec step; the selectors are computed from the modes' codes. -/
theorem setdmWritesDrawMode : Obligations.SetdmWritesDrawMode :=
  ⟨fun s m => congrArg Host.Outcome.next (finish_eq (s.setDm m)), fun _ => ⟨rfl, rfl, rfl, rfl⟩⟩

theorem execSetgeom_accept {w h : Coord} {s : State} (hc : geomCheck s.cfg.planeBytes w h = none) :
    execSetgeom w h s = .next (finish (s.setGeom w h)) := by
  rw [execSetgeom, hc]

theorem execSetgeom_refuse {w h : Coord} {s : State} {e : ErrCode} (hc : geomCheck s.cfg.planeBytes w h = some e) :
    execSetgeom w h s = .next (toIdle (raiseError (.command .setgeom) e s)) := by
  rw [execSetgeom, hc]

/-- Settles O15: the two answers of the geometry check. -/
theorem setgeomWritesOrRefuses : Obligations.SetgeomWritesOrRefuses := fun s w h =>
  ⟨fun hlegal => execSetgeom_accept ((geomCheck_eq s.cfg.planeBytes w h).trans (if_pos hlegal)),
   fun hillegal => execSetgeom_refuse ((geomCheck_eq s.cfg.planeBytes w h).trans (if_neg hillegal))⟩

end Sys2Proof.Machine

/-!
PROOFS. The pixel commands (43_pixel): what PSET writes and PGET pushes, pixels as colours, the composition laws of the draw
modes (R552), and the answer to a pixel out of bounds.
-/

namespace Sys2Proof.Machine

/-! ### A pixel in bounds -/

/-- On an accepted geometry a pixel in bounds has one address, by BitAddr and by its flat index (41_datapath R453). -/
theorem State.geomOk.bitAddr_eq {s : State} (h : s.geomOk) {x y : Coord} (hx : x.toNat < s.gw.toNat) :
    bitAddr s.gw x y = flatAddr (flat s.gw x y) := by
  have h8 : s.gw.toNat % 8 = 0 := by
    rcases h with ⟨hgw, -⟩ | hlegal
    · rw [hgw]
      rfl
    · exact (geomLegal_iff.mp hlegal).1
  exact flatAddressAgrees s.gw x y h8 hx

/-- A pixel command in bounds: its effect and the end of the Exec step, for its byte exists (41_datapath R480). -/
theorem State.geomOk.runCommand_pixel {s : State} (h : s.geomOk) {x y : Coord} (hx : x.toNat < s.gw.toNat)
    (hy : y.toNat < s.gh.toNat) (k : Kind) (effect : State → State) :
    runCommand k (pixelCheck s.gw s.gh x y) (flat s.gw x y / 8) effect s = .next (finish (effect s)) := by
  obtain ⟨hbyte, hscreen⟩ := h.pixel_byte_lt ⟨hx, hy⟩
  rw [pixelCheck_eq, if_pos ⟨hx, hy⟩]
  exact if_pos (hbyte.trans_le hscreen)

theorem exec_pset_eq {s : State} (h : s.geomOk) {x y : Coord} (hx : x.toNat < s.gw.toNat) (hy : y.toNat < s.gh.toNat)
    (c : Colour) : exec (.pset c x y) s = .next (finish (pixelWrite (flat s.gw x y) c s)) :=
  h.runCommand_pixel hx hy .pset _

theorem exec_pget_eq {s : State} (h : s.geomOk) {x y : Coord} (hx : x.toNat < s.gw.toNat) (hy : y.toNat < s.gh.toNat) :
    exec (.pget x y) s = .next (finish (pushPixel (flat s.gw x y) s)) :=
  h.runCommand_pixel hx hy .pget _

/-! ### PixelWrite as one update -/

/-- One plane of PixelWrite: read the byte, write the masked combine (41_datapath R465). -/
def pixelStep (f : Nat) (c : Colour) (s : State) (p : Plane) : State :=
  (s.planeRead p (f / 8)).planeWrite p (f / 8) (mrmw s.dm (s.planeByte p (f / 8)) (bcastC c p) (0x80#8 >>> (f % 8)))

/-- The read and the write that PixelWrite makes in plane `p`, in this order (41_datapath R470). -/
def pixelAccesses (f : Nat) (c : Colour) (s : State) (p : Plane) : List Access :=
  [⟨.read, p, f / 8, s.planeByte p (f / 8)⟩,
   ⟨.write, p, f / 8, mrmw s.dm (s.planeByte p (f / 8)) (bcastC c p) (0x80#8 >>> (f % 8))⟩]

theorem pixelWrite_eq_foldl (f : Nat) (c : Colour) (s : State) : pixelWrite f c s = Plane.all.foldl (pixelStep f c) s := rfl

/-- Where nothing is undefined, a plane's step changes that plane and the trace. -/
theorem pixelStep_eq {s : State} (hz : s.hazard = false) (f : Nat) (c : Colour) (p : Plane) :
    ∃ m, pixelStep f c s p =
      { s with planes := s.planes.set p m, trace := (pixelAccesses f c s p).reverse ++ s.trace } := by
  have hread : (s.planeRead p (f / 8)).hazard = false := hz
  simp only [pixelStep, State.planeWrite, hread, Bool.false_eq_true, if_false]
  exact ⟨_, rfl⟩

/-- Along distinct planes each step finds its own plane untouched, so the accesses are those on the first state. -/
theorem foldl_pixelStep_eq {f : Nat} {c : Colour} {l : List Plane} (hl : l.Nodup) {s : State} (hz : s.hazard = false) :
    ∃ pl, l.foldl (pixelStep f c) s =
      { s with planes := pl, trace := (l.flatMap (pixelAccesses f c s)).reverse ++ s.trace } := by
  induction l generalizing s with
  | nil => exact ⟨s.planes, rfl⟩
  | cons p l ih =>
    obtain ⟨hp, hl⟩ := List.nodup_cons.mp hl
    obtain ⟨m, hstep⟩ := pixelStep_eq hz f c p
    have hsame : ∀ q ∈ l, pixelAccesses f c (pixelStep f c s p) q = pixelAccesses f c s q := by
      intro q hq
      have hqp : q ≠ p := fun h => hp (h ▸ hq)
      rw [hstep]
      simp only [pixelAccesses, State.planeByte, Quad.get_set_ne _ _ hqp]
    obtain ⟨pl, hrest⟩ := ih hl (s := pixelStep f c s p) (by rw [hstep]; exact hz)
    refine ⟨pl, ?_⟩
    rw [List.foldl_cons, hrest, List.flatMap_congr hsame, hstep]
    simp only [List.flatMap_cons, List.reverse_append, List.append_assoc]

/-- PixelWrite where nothing is undefined: planes and trace only, four reads and four writes, planes 1 to 4 (41_datapath
R465, R470). -/
theorem pixelWrite_eq_update {s : State} (hz : s.hazard = false) (f : Nat) (c : Colour) :
    ∃ pl, pixelWrite f c s =
      { s with planes := pl, trace := (Plane.all.flatMap (pixelAccesses f c s)).reverse ++ s.trace } := by
  rw [pixelWrite_eq_foldl]
  exact foldl_pixelStep_eq (by decide) hz

theorem finish_planeByte (s : State) (p : Plane) (off : Nat) : (finish s).planeByte p off = s.planeByte p off := rfl

theorem finish_lane (s : State) (p : Plane) (f : Nat) : (finish s).lane p f = s.lane p f := rfl

/-- Settles O16: PixelWrite's bytes, its accesses, and the end of the Exec step. -/
theorem psetWritesOnePixel : Obligations.PsetWritesOnePixel := by
  intro s c x y hplanes hgeom hz hx hy
  have hexec := exec_pset_eq hgeom hx hy c
  rw [hgeom.bitAddr_eq hx]
  generalize flat s.gw x y = f at hexec ⊢
  have hbyte (p : Plane) (off : Nat) := (finish_planeByte _ p off).trans
    (pixelWrite_planeByte hz (fun p => (hplanes p).1) f c p off)
  have hpos (p : Plane) := (hbyte p (flatAddr f).1).trans (if_pos rfl)
  refine ⟨_, hexec, hpos, fun p off hoff => (hbyte p off).trans (if_neg hoff), ?_⟩
  simp only [hpos]
  obtain ⟨pl, hupdate⟩ := pixelWrite_eq_update hz f c
  rw [hupdate, finish_eq]
  simp only [hz]
  rfl

/-! ### Lanes and colours -/

theorem bcastC_getLsbD (c : Colour) (p : Plane) {j : Nat} (hj : j < 8) : (bcastC c p).getLsbD j = planeBit c p := by
  have : ∀ d : Bool, ∀ i < 8, (bcast d).getLsbD i = d := by decide
  exact this _ j hj

/-- PixelWrite by lanes: the draw mode on the addressed bit of each plane, every other bit as before (43_pixel R551). -/
theorem pixelWrite_lane {s : State} (hz : s.hazard = false) (hc : s.canonical) (f : Nat) (c : Colour) (p : Plane)
    (g : Nat) :
    (pixelWrite f c s).lane p g = if g = f then combineBit s.dm (s.lane p g) (planeBit c p) else s.lane p g := by
  have hbit : 7 - g % 8 < 8 := by omega
  rw [State.lane, pixelWrite_planeByte hz hc]
  by_cases hbyte : g / 8 = f / 8
  · rw [if_pos hbyte, mrmw_getLsbD _ _ _ _ hbit, pixelMask_getLsbD _ _ hbit, bcastC_getLsbD _ _ hbit]
    by_cases hg : g = f
    · subst hg
      simp [State.lane]
    · rw [if_neg hg, if_neg (by simp only [decide_eq_true_eq]; omega), State.lane, hbyte]
  · rw [if_neg hbyte, if_neg (mt (congrArg (· / 8)) hbyte), State.lane]

/-- Settles O17: PixelWrite by lanes. -/
theorem psetFollowsTruthTable : Obligations.PsetFollowsTruthTable := by
  intro s c x y t hplanes hgeom hz hx hy hexec p f
  rw [exec_pset_eq hgeom hx hy c] at hexec
  cases hexec
  rw [finish_lane]
  exact pixelWrite_lane hz (fun p => (hplanes p).1) (flat s.gw x y) c p f

/-- A byte has a bit in common with a pixel's mask when the pixel's own bit is set (41_datapath R466). -/
theorem and_pixelMask_bne_zero (b : Byte) (f : Nat) : (b &&& 0x80#8 >>> (f % 8) != 0) = b.getLsbD (7 - f % 8) := by
  have hmask : 0x80#8 >>> (f % 8) = BitVec.twoPow 8 (7 - f % 8) := by
    have : ∀ r < 8, 0x80#8 >>> r = BitVec.twoPow 8 (7 - r) := by decide
    exact this _ (Nat.mod_lt _ (by decide))
  have hne : BitVec.twoPow 8 (7 - f % 8) ≠ 0#8 := by
    have : ∀ i < 8, BitVec.twoPow 8 i ≠ 0#8 := by decide
    exact this _ (by omega)
  rw [hmask, BitVec.and_twoPow]
  cases b.getLsbD (7 - f % 8) <;> simp [hne]

/-- The colour PixelRead returns holds the pixel's bit of each plane (41_datapath R466). -/
theorem planeBit_pixelColour (s : State) (f : Nat) (p : Plane) : planeBit (pixelColour s f) p = s.lane p f := by
  rw [pixelColour, planeBit_gather, Quad.get_ofFn]
  exact and_pixelMask_bne_zero _ f

theorem planeBit_combineColour (m : DrawMode) (c d : Colour) (p : Plane) :
    planeBit (combineColour m c d) p = combineBit m (planeBit c p) (planeBit d p) := by
  cases m with
  | replace => rfl
  | and => exact BitVec.getLsbD_and
  | or => exact BitVec.getLsbD_or
  | xor => exact BitVec.getLsbD_xor

/-- What PixelRead returns after PixelWrite on the same pixel: the draw mode of the old colour and the new. -/
theorem pixelColour_pixelWrite {s : State} (hz : s.hazard = false) (hc : s.canonical) (f : Nat) (c : Colour) :
    pixelColour (pixelWrite f c s) f = combineColour s.dm (pixelColour s f) c :=
  colour_ext fun p => by
    rw [planeBit_combineColour, planeBit_pixelColour, planeBit_pixelColour, pixelWrite_lane hz hc, if_pos rfl]

/-! ### PGET's result byte -/

theorem resultByte_getLsbD (c : Colour) (p : Plane) : (resultByte c).getLsbD p.bit = planeBit c p := by
  have hbit : p.bit < 8 := by cases p <;> decide
  rw [resultByte, BitVec.getLsbD_setWidth, decide_eq_true hbit, Bool.true_and, planeBit]

theorem resultByte_getLsbD_high (c : Colour) {j : Nat} (hj : 4 ≤ j) : (resultByte c).getLsbD j = false := by
  rw [resultByte, BitVec.getLsbD_setWidth, BitVec.getLsbD_of_ge c j hj, Bool.and_false]

theorem pushPixel_eq (f : Nat) (s : State) :
    pushPixel f s = { s with
      rq := s.rq ++ [resultByte (pixelColour s f)]
      trace := (Plane.all.map fun p => ⟨.read, p, f / 8, s.planeByte p (f / 8)⟩).reverse ++ s.trace } := rfl

/-- Settles O18: the pushed byte is PixelRead's colour, zero extended. -/
theorem pgetPushesColour : Obligations.PgetPushesColour := by
  intro s x y hgeom hx hy
  rw [hgeom.bitAddr_eq hx]
  refine ⟨resultByte (pixelColour s (flat s.gw x y)), ?_, fun p => ?_, fun j => resultByte_getLsbD_high _⟩
  · rw [exec_pget_eq hgeom hx hy, pushPixel_eq, finish_eq]
    rfl
  · rw [resultByte_getLsbD, pixelColour, planeBit_gather, Quad.get_ofFn, bne_iff_ne]

/-! ### Commands on one pixel, one after the other -/

/-- What PSET and PGET of the pixel (x, y) need of a state, and SETDM and PSET keep. -/
structure State.PixelReady (x y : Coord) (s : State) : Prop where
  canonical : s.canonical
  geom : s.geomOk
  hazard : s.hazard = false
  column : x.toNat < s.gw.toNat
  row : y.toNat < s.gh.toNat

theorem setDm_pixelReady {x y : Coord} {s : State} (h : s.PixelReady x y) (m : DrawMode) :
    (s.setDm m).PixelReady x y :=
  ⟨h.canonical, h.geom, h.hazard, h.column, h.row⟩

theorem pixelWrite_pixelReady {x y : Coord} {s : State} (h : s.PixelReady x y) (f : Nat) (c : Colour) :
    (pixelWrite f c s).PixelReady x y := by
  have hcanonical := pixelWrite_canonical h.canonical f c
  obtain ⟨pl, hupdate⟩ := pixelWrite_eq_update h.hazard f c
  rw [hupdate] at hcanonical ⊢
  exact ⟨hcanonical, h.geom, h.hazard, h.column, h.row⟩

theorem finish_pixelReady {x y : Coord} {s : State} (h : s.PixelReady x y) : (finish s).PixelReady x y :=
  ⟨h.canonical, h.geom, rfl, h.column, h.row⟩

/-- SETDM, then PSET: the pixel's colour by the draw mode from the old one and PSET's, and no result. -/
theorem State.PixelReady.issue_setdm_pset {x y : Coord} {s : State} (h : s.PixelReady x y) (m : DrawMode) (c : Colour) :
    ∃ u, (∀ is, issue (.setdm m :: .pset c x y :: is) s = issue is u) ∧ u.PixelReady x y ∧ u.gw = s.gw ∧ u.rq = s.rq ∧
      pixelColour u (flat s.gw x y) = combineColour m (pixelColour s (flat s.gw x y)) c := by
  have hd := finish_pixelReady (setDm_pixelReady h m)
  have hsetdm : exec (.setdm m) s = .next (finish (s.setDm m)) := setdmWritesDrawMode.1 s m
  have hpset := exec_pset_eq hd.geom hd.column hd.row c
  obtain ⟨pl, hupdate⟩ := pixelWrite_eq_update hd.hazard (flat s.gw x y) c
  exact ⟨_, fun is => (issue_cons hsetdm _).trans (issue_cons hpset is), finish_pixelReady (pixelWrite_pixelReady hd _ c),
    congrArg (·.gw) hupdate, congrArg (·.rq) hupdate, pixelColour_pixelWrite hd.hazard hd.canonical _ c⟩

theorem State.PixelReady.issue_pget {x y : Coord} {s : State} (h : s.PixelReady x y) :
    ∃ t, issue [.pget x y] s = .next t ∧ t.rq = s.rq ++ [resultByte (pixelColour s (flat s.gw x y))] :=
  ⟨_, issue_cons (exec_pget_eq h.geom h.column h.row) [], rfl⟩

/-- Settles O20: SETDM and PSET once, with the colour replaced, or twice, and then PGET. -/
theorem drawModesCompose : Obligations.DrawModesCompose := by
  intro s c1 c2 x y hplanes hgeom hz hx hy
  have hs : s.PixelReady x y := ⟨fun p => (hplanes p).1, hgeom, hz, hx, hy⟩
  obtain ⟨u, hissue, hu, hgw, hrq, hcolour⟩ := hs.issue_setdm_pset .replace c1
  refine ⟨?_, fun m => ?_⟩
  · obtain ⟨t, ht, hpush⟩ := hu.issue_pget
    refine ⟨t, (hissue _).trans ht, ?_⟩
    rw [hpush, hgw, hrq, hcolour]
    rfl
  · obtain ⟨v, hissue', hv, hgw', hrq', hcolour'⟩ := hu.issue_setdm_pset m c2
    obtain ⟨t, ht, hpush⟩ := hv.issue_pget
    refine ⟨t, (hissue _).trans ((hissue' _).trans ht), ?_⟩
    rw [hpush, hrq', hrq, hgw', hcolour', hgw, hcolour]
    rfl

/-! ### A pixel out of bounds -/

/-- A pixel command out of bounds raises OOB and has no effect (43_pixel R550, R560). -/
theorem runCommand_oob {s : State} {x y : Coord} (h : ¬(x.toNat < s.gw.toNat ∧ y.toNat < s.gh.toNat)) (k : Kind)
    (top : Nat) (effect : State → State) :
    runCommand k (pixelCheck s.gw s.gh x y) top effect s = .next (toIdle (raiseError (.command k) .oob s)) := by
  rw [pixelCheck_eq, if_neg h, runCommand]

/-- Settles O19: PSET and PGET make one check. -/
theorem pixelOutOfBoundsRaisesOob : Obligations.PixelOutOfBoundsRaisesOob := fun _ _ _ h =>
  ⟨fun _ => runCommand_oob h .pset _ _, runCommand_oob h .pget _ _⟩

end Sys2Proof.Machine

/-!
PROOFS. The range commands (44_range): a walk of a split range as one update of the range's pixels (R640), what RFILL
and RSET leave in the planes and RGET pushes, and the answer to an illegal range (R600).
-/

namespace Sys2Proof.Machine

/-! ### A legal range -/

/-- A range passes the range check when its ends are in bounds and in order (44_range R600). -/
theorem rangeCheck_eq_none_iff {gw gh x1 y1 x2 y2 : Coord} :
    rangeCheck gw gh x1 y1 x2 y2 = none ↔
      (x1.toNat < gw.toNat ∧ y1.toNat < gh.toNat ∧ x2.toNat < gw.toNat ∧ y2.toNat < gh.toNat) ∧
        flat gw x1 y1 ≤ flat gw x2 y2 := by
  rw [rangeCheck_eq]
  constructor
  · intro h
    split_ifs at h with hin horder
    exact ⟨hin, horder⟩
  · rintro ⟨hin, horder⟩
    rw [if_pos hin, if_pos horder]

/-- On an accepted geometry the last byte of a legal range exists, so the effect is performed (41_datapath R480). -/
theorem State.geomOk.runCommand_range {s : State} (h : s.geomOk) {x1 y1 x2 y2 : Coord}
    (hv : rangeCheck s.gw s.gh x1 y1 x2 y2 = none) (k : Kind) (effect : State → State) :
    runCommand k none (flat s.gw x2 y2 / 8) effect s = .next (finish (effect s)) := by
  obtain ⟨hbyte, hscreen⟩ := h.pixel_byte_lt (rangeCheck_none_last hv)
  exact if_pos (hbyte.trans_le hscreen)

theorem exec_rfill_eq {s : State} (h : s.geomOk) {x1 y1 x2 y2 : Coord} (hv : rangeCheck s.gw s.gh x1 y1 x2 y2 = none)
    (c : Colour) :
    exec (.rfill c x1 y1 x2 y2) s = .next (finish (fillRange c (flat s.gw x1 y1) (flat s.gw x2 y2) s)) := by
  rw [exec, execRfill, hv, h.runCommand_range hv]

theorem exec_rset_eq {s : State} (h : s.geomOk) {x1 y1 x2 y2 : Coord} (hv : rangeCheck s.gw s.gh x1 y1 x2 y2 = none)
    {data : List Byte} (hn : data.length = rangeLength s.gw x1 y1 x2 y2) :
    exec (.rset x1 y1 x2 y2 data) s = .next (finish (setRange data (flat s.gw x1 y1) (flat s.gw x2 y2) s)) := by
  simp only [exec, execRset, hv, if_pos hn, h.runCommand_range hv]

theorem exec_rget_eq {s : State} (h : s.geomOk) {x1 y1 x2 y2 : Coord} (hv : rangeCheck s.gw s.gh x1 y1 x2 y2 = none) :
    exec (.rget x1 y1 x2 y2) s = .next (finish (getRange (flat s.gw x1 y1) (flat s.gw x2 y2) s)) := by
  rw [exec, execRget, hv, h.runCommand_range hv]

/-! ### A walk covers its range -/

/-- A relation indexed by the flat indices it has dealt with, along a list of steps that deal with different ones. -/
theorem foldl_covers {R : List Nat → State → State → Prop} (nil : ∀ s, R [] s s)
    (append : ∀ {l l' s t u}, l.Disjoint l' → R l s t → R l' t u → R (l ++ l') s u) {step : Nat → State → State}
    {indices : Nat → List Nat} (h : ∀ a s, R (indices a) s (step a s)) {l : List Nat} (hl : (l.flatMap indices).Nodup)
    (s : State) : R (l.flatMap indices) s (l.foldl (fun t a => step a t) s) := by
  induction l generalizing s with
  | nil => exact nil s
  | cons a l ih =>
    rw [List.flatMap_cons] at hl ⊢
    exact append (List.disjoint_of_nodup_append hl) (h a s) (ih hl.of_append_right _)

/-- One pixel at a time, in ascending order. -/
theorem pixelWalk_covers {R : List Nat → State → State → Prop} (nil : ∀ s, R [] s s)
    (append : ∀ {l l' s t u}, l.Disjoint l' → R l s t → R l' t u → R (l ++ l') s u) {pixel : Nat → State → State}
    (hp : ∀ f s, R [f] s (pixel f s)) {l : List Nat} (hl : l.Nodup) (s : State) :
    R l s (l.foldl (fun t f => pixel f t) s) := by
  rw [← List.flatMap_singleton' l] at hl
  have hwalk := foldl_covers nil append hp hl s
  rwa [List.flatMap_singleton'] at hwalk

theorem nodup_ascending (lo hi : Nat) : (ascending lo hi).Nodup := List.nodup_range'

/-- The walk of a split range deals with the flat indices of the range, each once, whole bytes eight at a time
(41_datapath R475, R476). -/
theorem overRange_covers {R : List Nat → State → State → Prop} (nil : ∀ s, R [] s s)
    (append : ∀ {l l' s t u}, l.Disjoint l' → R l s t → R l' t u → R (l ++ l') s u) {pixel byte : Nat → State → State}
    (hp : ∀ f s, R [f] s (pixel f s)) (hb : ∀ k s, R (ascending (8 * k) (8 * k + 8)) s (byte k s)) {ls le : Nat}
    (h : ls ≤ le) (s : State) : R (ascending ls (le + 1)) s (overRange ls le pixel byte s) := by
  have hall := nodup_ascending ls (le + 1)
  rw [← split_append h] at hall ⊢
  have hfirst := hall.of_append_left
  exact append (List.disjoint_of_nodup_append hall)
    (append (List.disjoint_of_nodup_append hfirst) (pixelWalk_covers nil append hp hfirst.of_append_left s)
      (foldl_covers nil append hb hfirst.of_append_right _))
    (pixelWalk_covers nil append hp hall.of_append_right _)

/-! ### Bytes and lanes -/

theorem mem_byte_indices {f k : Nat} : f ∈ ascending (8 * k) (8 * k + 8) ↔ f / 8 = k := by
  rw [mem_ascending]
  omega

/-- A plane byte is its eight lanes (41_datapath R485). -/
theorem planeByte_eq_of_lane {s : State} {p : Plane} {off : Nat} {b : Byte}
    (h : ∀ f, f / 8 = off → s.lane p f = b.getLsbD (7 - f % 8)) : s.planeByte p off = b := by
  refine BitVec.eq_of_getLsbD_eq fun j hj => ?_
  have hlane := h (8 * off + (7 - j)) (by omega)
  rwa [State.lane, show (8 * off + (7 - j)) / 8 = off by omega, show 7 - (8 * off + (7 - j)) % 8 = j by omega] at hlane

/-- Canonical planes with the same lanes are the same planes. -/
theorem planes_eq_of_lane {s t : State} (hs : s.canonical) (ht : t.canonical) (h : ∀ p f, s.lane p f = t.lane p f) :
    s.planes = t.planes :=
  Quad.ext_get fun p => memWf_ext (hs p) (ht p) fun off =>
    planeByte_eq_of_lane fun f hf => by
      rw [h, State.lane, hf]
      rfl

/-! ### ByteWrite as one update -/

/-- Where nothing is undefined, ByteWrite changes planes and trace only (41_datapath R467). -/
theorem byteWrite_eq_update {s : State} (hz : s.hazard = false) (k : Nat) (d : Quad Byte) :
    ∃ pl tr, byteWrite k d s = { s with planes := pl, trace := tr } := by
  refine foldl_inv (P := fun t => ∃ pl tr, t = { s with planes := pl, trace := tr }) ?_ ⟨s.planes, s.trace, rfl⟩
  rintro t p - ⟨pl, tr, rfl⟩
  simp only [State.planeWrite, State.planeRead, State.logAccess_hazard, hz, Bool.false_eq_true, if_false]
  split <;> exact ⟨_, _, rfl⟩

/-- ByteWrite by lanes: the draw mode on the eight bits of the byte in each plane, every other bit as before. -/
theorem byteWrite_lane {s : State} (hz : s.hazard = false) (hc : s.canonical) (k : Nat) (d : Quad Byte) (p : Plane)
    (f : Nat) :
    (byteWrite k d s).lane p f =
      if f / 8 = k then combineBit s.dm (s.lane p f) ((d.get p).getLsbD (7 - f % 8)) else s.lane p f := by
  rw [State.lane, byteWrite_planeByte hz hc]
  split
  · rename_i hf
    rw [combine_getLsbD, State.lane, hf]
  · rfl

/-! ### What a writing walk leaves -/

/-- `t` is `s` with the colours drawn at the flat indices `l` by the draw mode; nothing else changed but the trace. -/
structure Painted (colour : Nat → Colour) (l : List Nat) (s t : State) : Prop where
  canonical : t.canonical
  update : ∃ pl tr, t = { s with planes := pl, trace := tr }
  lane : ∀ p f, t.lane p f = if f ∈ l then combineBit s.dm (s.lane p f) (planeBit (colour f) p) else s.lane p f

/-- From canonical planes where nothing is undefined, `t` is `s` painted. -/
def Paints (colour : Nat → Colour) (l : List Nat) (s t : State) : Prop :=
  s.hazard = false → s.canonical → Painted colour l s t

theorem Paints.nil (colour : Nat → Colour) (s : State) : Paints colour [] s s := fun _ hc =>
  ⟨hc, ⟨s.planes, s.trace, rfl⟩, fun _ f => (if_neg (List.not_mem_nil (a := f))).symm⟩

theorem Paints.append {colour : Nat → Colour} {l l' : List Nat} {s t u : State} (hl : l.Disjoint l')
    (h : Paints colour l s t) (h' : Paints colour l' t u) : Paints colour (l ++ l') s u := by
  intro hz hc
  obtain ⟨htc, ⟨pl, tr, ht⟩, htlane⟩ := h hz hc
  have htz : t.hazard = false := (congrArg (·.hazard) ht).trans hz
  have htdm : t.dm = s.dm := congrArg (·.dm) ht
  obtain ⟨huc, ⟨pl', tr', hu⟩, hulane⟩ := h' htz htc
  refine ⟨huc, ⟨pl', tr', hu.trans (by rw [ht])⟩, fun p f => ?_⟩
  rw [hulane, htlane, htdm]
  by_cases hf : f ∈ l
  · have hf' : f ∉ l' := hl hf
    simp [hf, hf']
  · simp [hf]

theorem pixelWrite_paints (colour : Nat → Colour) (f : Nat) (s : State) :
    Paints colour [f] s (pixelWrite f (colour f) s) := by
  intro hz hc
  obtain ⟨pl, hupdate⟩ := pixelWrite_eq_update hz f (colour f)
  refine ⟨pixelWrite_canonical hc f _, ⟨pl, _, hupdate⟩, fun p g => ?_⟩
  rw [pixelWrite_lane hz hc]
  by_cases hg : g = f
  · simp [hg]
  · simp [hg]

/-- The data bytes of the byte path hold, lane by lane, the colours of the pixel path (44_range R640). -/
def Packs (colour : Nat → Colour) (data : Nat → Quad Byte) : Prop :=
  ∀ f p, ((data (f / 8)).get p).getLsbD (7 - f % 8) = planeBit (colour f) p

theorem byteWrite_paints {colour : Nat → Colour} {data : Nat → Quad Byte} (hd : Packs colour data) (k : Nat)
    (s : State) :
    Paints colour (ascending (8 * k) (8 * k + 8)) s (byteWrite k (data k) s) := by
  intro hz hc
  refine ⟨byteWrite_canonical hc k _, byteWrite_eq_update hz k _, fun p f => ?_⟩
  rw [byteWrite_lane hz hc]
  simp only [mem_byte_indices]
  split
  · rename_i hf
    rw [← hd f p, hf]
  · rfl

/-- The pixel path over a range (44_range R640). -/
theorem pixelWalk_paints (colour : Nat → Colour) (ls le : Nat) (s : State) :
    Paints colour (ascending ls (le + 1)) s ((ascending ls (le + 1)).foldl (fun t f => pixelWrite f (colour f) t) s) :=
  pixelWalk_covers (Paints.nil colour) Paints.append (pixelWrite_paints colour) (nodup_ascending ls (le + 1)) s

/-- The split walk over a range (44_range R640). -/
theorem writeRange_paints {colour : Nat → Colour} {data : Nat → Quad Byte} (hd : Packs colour data) {ls le : Nat}
    (h : ls ≤ le) (s : State) :
    Paints colour (ascending ls (le + 1)) s
      (overRange ls le (fun f => pixelWrite f (colour f)) (fun k => byteWrite k (data k)) s) :=
  overRange_covers (Paints.nil colour) Paints.append (pixelWrite_paints colour) (byteWrite_paints hd) h s

/-- RFILL's data bytes are the colour broadcast (44_range R610). -/
theorem fillRange_paints (c : Colour) {ls le : Nat} (h : ls ≤ le) (s : State) :
    Paints (fun _ => c) (ascending ls (le + 1)) s (fillRange c ls le s) :=
  writeRange_paints (data := fun _ => Quad.ofFn (bcastC c))
    (fun f p => by rw [Quad.get_ofFn, bcastC_getLsbD c p (by omega)]) h s

/-- RSET's data bytes are its colours packed (44_range R620). -/
theorem setRange_paints (data : List Byte) {ls le : Nat} (h : ls ≤ le) (s : State) :
    Paints (rangeColour data ls) (ascending ls (le + 1)) s (setRange data ls le s) :=
  writeRange_paints
    (fun f p => by rw [Quad.get_ofFn, pack_getLsbD p _ (Nat.mod_lt f (by decide)), Nat.div_add_mod]) h s

/-- What is painted alike from one state has the same planes. -/
theorem Painted.planes_eq {colour : Nat → Colour} {l : List Nat} {s t u : State} (h : Painted colour l s t)
    (h' : Painted colour l s u) : t.planes = u.planes :=
  planes_eq_of_lane h.canonical h'.canonical fun p f => (h.lane p f).trans (h'.lane p f).symm

/-- Settles O26: the split walk and the pixel path paint the same pixels in the same colours. -/
theorem bytePathEqualsPixelPath : Obligations.BytePathEqualsPixelPath := by
  intro s ls le hc hz h
  exact ⟨fun c => (fillRange_paints c h s hz hc).planes_eq (pixelWalk_paints (fun _ => c) ls le s hz hc),
    fun data => (setRange_paints data h s hz hc).planes_eq (pixelWalk_paints (rangeColour data ls) ls le s hz hc)⟩

/-! ### RFILL and RSET -/

theorem Painted.lane_range {colour : Nat → Colour} {ls le : Nat} {s t : State}
    (h : Painted colour (ascending ls (le + 1)) s t) (p : Plane) (f : Nat) :
    t.lane p f = if ls ≤ f ∧ f ≤ le then combineBit s.dm (s.lane p f) (planeBit (colour f) p) else s.lane p f := by
  simp only [h.lane, mem_ascending, Nat.lt_succ_iff]

/-- A byte before the range's first or after its last keeps every lane. -/
theorem Painted.planeByte_outside {colour : Nat → Colour} {ls le : Nat} {s t : State}
    (h : Painted colour (ascending ls (le + 1)) s t) (p : Plane) {off : Nat} (hoff : off < ls / 8 ∨ le / 8 < off) :
    t.planeByte p off = s.planeByte p off :=
  planeByte_eq_of_lane fun f hf => by
    rw [h.lane_range, if_neg (by omega), State.lane, hf]

/-- The frame of a writing command (40_sequencer R415). -/
theorem Painted.finish_update {colour : Nat → Colour} {l : List Nat} {s t : State} (h : Painted colour l s t)
    (hz : s.hazard = false) :
    finish t = { s with
      planes := (finish t).planes, trace := (finish t).trace, phase := .idle, argc := 0, dbuf := [], dcnt := 0 } := by
  obtain ⟨pl, tr, rfl⟩ := h.update
  rw [finish_eq]
  simp only [hz]

/-- What RFILL, RSET and RGET of a range need of a state, and SETDM, RFILL and RSET keep. -/
structure State.RangeReady (x1 y1 x2 y2 : Coord) (s : State) : Prop where
  canonical : s.canonical
  geom : s.geomOk
  hazard : s.hazard = false
  legal : rangeCheck s.gw s.gh x1 y1 x2 y2 = none

theorem State.RangeReady.of_bounds {x1 y1 x2 y2 : Coord} {s : State} (hplanes : s.planesOk) (hgeom : s.geomOk)
    (hz : s.hazard = false)
    (hin : x1.toNat < s.gw.toNat ∧ y1.toNat < s.gh.toNat ∧ x2.toNat < s.gw.toNat ∧ y2.toNat < s.gh.toNat)
    (h : flat s.gw x1 y1 ≤ flat s.gw x2 y2) : s.RangeReady x1 y1 x2 y2 :=
  ⟨fun p => (hplanes p).1, hgeom, hz, rangeCheck_eq_none_iff.mpr ⟨hin, h⟩⟩

/-- RFILL of a legal range. -/
theorem State.RangeReady.exec_rfill {x1 y1 x2 y2 : Coord} {s : State} (h : s.RangeReady x1 y1 x2 y2) (c : Colour) :
    ∃ t, exec (.rfill c x1 y1 x2 y2) s = .next (finish t) ∧
      Painted (fun _ => c) (ascending (flat s.gw x1 y1) (flat s.gw x2 y2 + 1)) s t :=
  ⟨_, exec_rfill_eq h.geom h.legal c, fillRange_paints c (rangeCheck_none_order h.legal) s h.hazard h.canonical⟩

/-- RSET of a legal range with its n data bytes. -/
theorem State.RangeReady.exec_rset {x1 y1 x2 y2 : Coord} {s : State} (h : s.RangeReady x1 y1 x2 y2) {data : List Byte}
    (hn : data.length = rangeLength s.gw x1 y1 x2 y2) :
    ∃ t, exec (.rset x1 y1 x2 y2 data) s = .next (finish t) ∧
      Painted (rangeColour data (flat s.gw x1 y1)) (ascending (flat s.gw x1 y1) (flat s.gw x2 y2 + 1)) s t :=
  ⟨_, exec_rset_eq h.geom h.legal hn, setRange_paints data (rangeCheck_none_order h.legal) s h.hazard h.canonical⟩

/-- Settles O21: RFILL paints its colour at the pixels of the range. -/
theorem rfillFillsRange : Obligations.RfillFillsRange := by
  intro s c x1 y1 x2 y2 hplanes hgeom hz hx1 hy1 hx2 hy2 h
  have hs := State.RangeReady.of_bounds hplanes hgeom hz ⟨hx1, hy1, hx2, hy2⟩ h
  obtain ⟨t, hexec, hpainted⟩ := hs.exec_rfill c
  exact ⟨finish t, hexec, hpainted.lane_range, fun p off => hpainted.planeByte_outside p, hpainted.finish_update hz⟩

/-- A data byte's colour is its bits 3:0 (30_encoding R312). -/
theorem planeBit_dataColour (b : Byte) (p : Plane) : planeBit (dataColour b) p = b.getLsbD p.bit := by
  have hbit : p.bit < 4 := by cases p <;> decide
  rw [planeBit, dataColour, BitVec.getLsbD_setWidth, decide_eq_true hbit, Bool.true_and]

/-- Settles O22: RSET paints the colours of its data bytes at the pixels of the range. -/
theorem rsetWritesColours : Obligations.RsetWritesColours := by
  intro s x1 y1 x2 y2 data hplanes hgeom hz hx1 hy1 hx2 hy2 h hn
  have hs := State.RangeReady.of_bounds hplanes hgeom hz ⟨hx1, hy1, hx2, hy2⟩ h
  obtain ⟨t, hexec, hpainted⟩ := hs.exec_rset hn
  refine ⟨finish t, hexec, fun p f => ?_, fun p off => hpainted.planeByte_outside p, hpainted.finish_update hz⟩
  rw [finish_lane, hpainted.lane_range, rangeColour, planeBit_dataColour]

/-! ### Commands on one range, one after the other -/

theorem setDm_rangeReady {x1 y1 x2 y2 : Coord} {s : State} (h : s.RangeReady x1 y1 x2 y2) (m : DrawMode) :
    (finish (s.setDm m)).RangeReady x1 y1 x2 y2 :=
  ⟨h.canonical, h.geom, rfl, h.legal⟩

theorem Painted.finish_rangeReady {colour : Nat → Colour} {l : List Nat} {x1 y1 x2 y2 : Coord} {s t : State}
    (h : Painted colour l s t) (hs : s.RangeReady x1 y1 x2 y2) : (finish t).RangeReady x1 y1 x2 y2 := by
  have hc := h.canonical
  obtain ⟨pl, tr, ht⟩ := h.update
  rw [ht] at hc ⊢
  exact ⟨hc, hs.geom, rfl, hs.legal⟩

/-- Settles O29: on each lane of the range the colour's bit is combined twice. -/
theorem xorFillTwiceRestores : Obligations.XorFillTwiceRestores := by
  intro s t u c x1 y1 x2 y2 hplanes hgeom hz hxor hv ht hu
  have hs : s.RangeReady x1 y1 x2 y2 := ⟨fun p => (hplanes p).1, hgeom, hz, hv⟩
  obtain ⟨v, hexec, hfirst⟩ := hs.exec_rfill c
  cases hexec.symm.trans ht
  obtain ⟨w, hexec', hsecond⟩ := (hfirst.finish_rangeReady hs).exec_rfill c
  cases hexec'.symm.trans hu
  obtain ⟨pl, tr, hupdate⟩ := hfirst.update
  have hgw : (finish v).gw = s.gw := congrArg (·.gw) hupdate
  have hdm : (finish v).dm = .xor := (congrArg (·.dm) hupdate).trans hxor
  rw [hgw] at hsecond
  refine planes_eq_of_lane (s := w) hsecond.canonical hs.canonical fun p f => ?_
  rw [hsecond.lane, finish_lane, hfirst.lane, hdm, hxor]
  split
  · simp only [combineBit, Bool.xor_assoc, Bool.xor_self, Bool.xor_false]
  · rfl

/-! ### RGET -/

/-- `t` is `s` with the colours at the flat indices `l` pushed in order, and nothing else changed but the trace. -/
def Pushes (l : List Nat) (s t : State) : Prop :=
  ∃ tr, t = { s with rq := s.rq ++ l.map fun f => resultByte (pixelColour s f), trace := tr }

theorem Pushes.nil (s : State) : Pushes [] s s := ⟨s.trace, by rw [List.map_nil, List.append_nil]⟩

theorem Pushes.append {l l' : List Nat} {s t u : State} (h : Pushes l s t) (h' : Pushes l' t u) :
    Pushes (l ++ l') s u := by
  obtain ⟨tr, rfl⟩ := h
  obtain ⟨tr', rfl⟩ := h'
  refine ⟨tr', ?_⟩
  rw [List.map_append, ← List.append_assoc]
  rfl

theorem pushPixel_pushes (f : Nat) (s : State) : Pushes [f] s (pushPixel f s) := ⟨_, pushPixel_eq f s⟩

/-- A lane of ByteRead is the colour PixelRead returns there (41_datapath R463, R485). -/
theorem unpack_byteRead (s : State) (k : Nat) {j : Nat} (hj : j < 8) :
    unpack (byteRead s k) j = pixelColour s (8 * k + j) :=
  colour_ext fun p => by
    rw [planeBit_pixelColour, unpack, planeBit_gather, Quad.get_ofFn, byteRead, Quad.get_ofFn, State.lane,
      show (8 * k + j) / 8 = k by omega, show (8 * k + j) % 8 = j by omega]

theorem foldl_pushResult (b : Nat → Byte) (l : List Nat) (s : State) :
    l.foldl (fun t j => t.pushResult (b j)) s = s.setRq (s.rq ++ l.map b) := by
  induction l generalizing s with
  | nil =>
    rw [List.map_nil, List.append_nil]
    rfl
  | cons j l ih =>
    rw [List.foldl_cons, ih, List.map_cons, List.append_cons]
    rfl

/-- The eight result bytes of an interior byte are those of its pixels (44_range R630). -/
theorem pushByte_pushes (k : Nat) (s : State) : Pushes (ascending (8 * k) (8 * k + 8)) s (pushByte k s) := by
  have hlanes : (List.range 8).map (fun j => resultByte (unpack (byteRead s k) j)) =
      (ascending (8 * k) (8 * k + 8)).map fun f => resultByte (pixelColour s f) := by
    rw [ascending, List.range'_eq_map_range, List.map_map, Nat.add_sub_cancel_left]
    exact List.map_congr_left fun j hj => congrArg resultByte (unpack_byteRead s k (List.mem_range.mp hj))
  refine ⟨(readPlanes k s).trace, ?_⟩
  rw [pushByte, foldl_pushResult, hlanes]
  rfl

theorem getRange_pushes {ls le : Nat} (h : ls ≤ le) (s : State) : Pushes (ascending ls (le + 1)) s (getRange ls le s) :=
  overRange_covers Pushes.nil (fun _ => Pushes.append) pushPixel_pushes pushByte_pushes h s

/-- Byte i of what a range is mapped to belongs to flat index ls + i. -/
theorem getD_map_ascending (b : Nat → Byte) {ls hi i : Nat} (h : i < hi - ls) :
    ((ascending ls hi).map b).getD i 0 = b (ls + i) := by
  rw [List.getD_eq_getElem _ _ (by simpa using h), List.getElem_map]
  simp only [ascending, List.getElem_range', Nat.one_mul]

/-- Settles O23: the colours of the range's pixels, zero extended, in order. -/
theorem rgetPushesColours : Obligations.RgetPushesColours := by
  intro s x1 y1 x2 y2 hgeom hx1 hy1 hx2 hy2 h
  have hexec := exec_rget_eq hgeom (rangeCheck_eq_none_iff.mpr ⟨⟨hx1, hy1, hx2, hy2⟩, h⟩)
  obtain ⟨tr, hpush⟩ := getRange_pushes h s
  rw [hpush, finish_eq] at hexec
  refine ⟨_, hexec, ⟨_, rfl, by rw [List.length_map, length_ascending], fun i hi => ?_⟩, rfl⟩
  rw [List.length_map, length_ascending] at hi
  rw [getD_map_ascending _ hi]
  exact ⟨fun p => by rw [resultByte_getLsbD, planeBit_pixelColour], fun j => resultByte_getLsbD_high _⟩

/-! ### RSET read back -/

/-- Under Replace a painted pixel has the colour painted. -/
theorem Painted.pixelColour_replace {colour : Nat → Colour} {l : List Nat} {s t : State} (h : Painted colour l s t)
    (hm : s.dm = .replace) {f : Nat} (hf : f ∈ l) : pixelColour t f = colour f :=
  colour_ext fun p => by rw [planeBit_pixelColour, h.lane, if_pos hf, hm, combineBit]

/-- SETDM REPLACE, then RSET: the colours of the range are those of the data bytes, and there is no result. -/
theorem State.RangeReady.issue_setdm_rset {x1 y1 x2 y2 : Coord} {s : State} (h : s.RangeReady x1 y1 x2 y2)
    {data : List Byte} (hn : data.length = rangeLength s.gw x1 y1 x2 y2) :
    ∃ u, (∀ is, issue (.setdm .replace :: .rset x1 y1 x2 y2 data :: is) s = issue is u) ∧ u.RangeReady x1 y1 x2 y2 ∧
      u.gw = s.gw ∧ u.gh = s.gh ∧ u.rq = s.rq ∧
      ∀ f ∈ ascending (flat s.gw x1 y1) (flat s.gw x2 y2 + 1),
        pixelColour u f = rangeColour data (flat s.gw x1 y1) f := by
  have hd := setDm_rangeReady h .replace
  have hsetdm : exec (.setdm .replace) s = .next (finish (s.setDm .replace)) := setdmWritesDrawMode.1 s .replace
  obtain ⟨t, hrset, hpainted⟩ := hd.exec_rset hn
  obtain ⟨pl, tr, hupdate⟩ := hpainted.update
  exact ⟨finish t, fun is => (issue_cons hsetdm _).trans (issue_cons hrset is), hpainted.finish_rangeReady hd,
    congrArg (·.gw) hupdate, congrArg (·.gh) hupdate, congrArg (·.rq) hupdate,
    fun f hf => hpainted.pixelColour_replace rfl hf⟩

/-- A data byte comes back with bits 7:4 cleared (30_encoding R312, R313). -/
theorem resultByte_dataColour : ∀ b : Byte, resultByte (dataColour b) = b &&& 0x0F := by decide

theorem resultByte_rangeColour (data : List Byte) (ls i : Nat) :
    resultByte (rangeColour data ls (ls + i)) = data.getD i 0 &&& 0x0F := by
  rw [rangeColour, Nat.add_sub_cancel_left, resultByte_dataColour]

/-- The results of a range that holds the data bytes' colours. -/
theorem map_rangeColour {data : List Byte} {ls hi : Nat} (hn : data.length = hi - ls) :
    (ascending ls hi).map (fun f => resultByte (rangeColour data ls f)) = data.map (· &&& 0x0F) := by
  refine List.ext_getElem (by simp [hn]) fun i hi' hi'' => ?_
  rw [List.length_map] at hi''
  rw [← List.getD_eq_getElem _ 0 hi', getD_map_ascending _ (hn ▸ hi''), resultByte_rangeColour, List.getElem_map,
    List.getD_eq_getElem _ 0 hi'']

/-- Settles O27: SETDM and RSET, and then RGET of the range or PGET of one of its pixels. -/
theorem setRangeReadsBack : Obligations.SetRangeReadsBack := by
  intro s x1 y1 x2 y2 data hplanes hgeom hz hx1 hy1 hx2 hy2 h hn
  have hs := State.RangeReady.of_bounds hplanes hgeom hz ⟨hx1, hy1, hx2, hy2⟩ h
  obtain ⟨u, hissue, hu, hgw, hgh, hrq, hcolour⟩ := hs.issue_setdm_rset hn
  refine ⟨?_, fun x y i hx hy hi hflat => ?_⟩
  · obtain ⟨tr, hpush⟩ := getRange_pushes (rangeCheck_none_order hu.legal) u
    refine ⟨_, (hissue _).trans (issue_cons (exec_rget_eq hu.geom hu.legal) []), ?_⟩
    have hresults := (List.map_congr_left fun f hf => congrArg resultByte (hcolour f hf)).trans (map_rangeColour hn)
    rw [hpush, hgw, ← hrq, ← hresults]
    rfl
  · have hpget := exec_pget_eq hu.geom (x := x) (y := y) (hgw ▸ hx) (hgh ▸ hy)
    refine ⟨_, (hissue _).trans (issue_cons hpget []), ?_⟩
    have hmem : flat s.gw x1 y1 + i ∈ ascending (flat s.gw x1 y1) (flat s.gw x2 y2 + 1) := by
      rw [mem_ascending]
      omega
    rw [← resultByte_rangeColour data (flat s.gw x1 y1) i, ← hcolour _ hmem, ← hflat, ← hgw, ← hrq]
    rfl

/-! ### The whole screen -/

/-- On an accepted geometry the screen's pixels are whole bytes (41_datapath R450). -/
theorem screen_pixels {n : Nat} {gw gh : Coord} (h : geomLegal n gw gh = true) :
    gw.toNat * gh.toNat = 8 * (stride gw * gh.toNat) ∧ 0 < stride gw * gh.toNat := by
  obtain ⟨h8, hgw, hgh, -⟩ := geomLegal_iff.mp h
  have hrow : 8 * stride gw = gw.toNat := Nat.mul_div_cancel' (Nat.dvd_of_mod_eq_zero h8)
  exact ⟨by rw [← Nat.mul_assoc, hrow], Nat.mul_pos (by omega) hgh⟩

/-- A range of whole bytes from 0 has no head and no tail (41_datapath R475). -/
theorem split_whole_bytes {n : Nat} (h : 0 < n) :
    (split 0 (8 * n - 1)).head = [] ∧ (split 0 (8 * n - 1)).tail = [] ∧
      (split 0 (8 * n - 1)).interior = List.range n := by
  have hsplit : split 0 (8 * n - 1) = ⟨0, 0, 0, n, 8 * n, 8 * n⟩ := by
    rw [split_eq, show 8 * n - 1 + 1 = 8 * n by omega, Nat.mul_div_cancel_left n (by decide)]
    simp
  rw [hsplit, List.range_eq_range']
  exact ⟨ascending_of_le le_rfl, ascending_of_le le_rfl, rfl⟩

/-- The last pixel of the screen. -/
theorem flat_last {gw gh : Coord} (hgw : 0 < gw.toNat) (hgh : 0 < gh.toNat) :
    (gw - 1).toNat < gw.toNat ∧ (gh - 1).toNat < gh.toNat ∧ flat gw (gw - 1) (gh - 1) = gw.toNat * gh.toNat - 1 := by
  have hcolumn : (gw - 1).toNat = gw.toNat - 1 := by bv_omega
  have hrow : (gh - 1).toNat = gh.toNat - 1 := by bv_omega
  refine ⟨by omega, by omega, ?_⟩
  rw [flat, hcolumn, hrow, Nat.sub_mul, Nat.one_mul, Nat.mul_comm gh.toNat]
  have := Nat.le_mul_of_pos_right gw.toNat hgh
  omega

/-- Settles O28: the range is whole bytes from 0; RFILL paints every lane of each. -/
theorem wholeScreenFillIsBytes : Obligations.WholeScreenFillIsBytes := by
  intro s c hplanes hlegal hz
  obtain ⟨hpixels, hbytes⟩ := screen_pixels hlegal
  obtain ⟨-, hgw, hgh, -⟩ := geomLegal_iff.mp hlegal
  obtain ⟨hx, hy, hlast⟩ := flat_last (gw := s.gw) (gh := s.gh) (by omega) (by omega)
  have hfirst : flat s.gw 0 0 = 0 := by simp [flat]
  rw [hpixels] at hlast ⊢
  obtain ⟨hhead, htail, hinterior⟩ := split_whole_bytes hbytes
  refine ⟨hhead, htail, hinterior, fun hm => ?_⟩
  have hv : rangeCheck s.gw s.gh 0 0 (s.gw - 1) (s.gh - 1) = none :=
    rangeCheck_eq_none_iff.mpr ⟨⟨Nat.lt_of_lt_of_le (by decide) hgw, hgh, hx, hy⟩, by rw [hfirst]; exact Nat.zero_le _⟩
  have hexec := exec_rfill_eq (Or.inr hlegal) hv c
  rw [hfirst, hlast] at hexec
  have htrace := (rangeAccessCounts s 0 (8 * (stride s.gw * s.gh.toNat) - 1) (Nat.zero_le _)).1 c
  have hpainted := fillRange_paints c (Nat.zero_le (8 * (stride s.gw * s.gh.toNat) - 1)) s hz fun p => (hplanes p).1
  rw [hhead, htail, hinterior, if_pos hm, List.length_range] at htrace
  generalize fillRange c 0 _ s = t at hexec htrace hpainted
  refine ⟨finish t, hexec, fun p off hoff => ?_, htrace⟩
  refine planeByte_eq_of_lane fun f hf => ?_
  rw [finish_lane, hpainted.lane_range, if_pos (by omega), hm, combineBit]
  exact (bcastC_getLsbD c p (by omega)).symm

/-! ### An illegal range -/

/-- Bounds are checked before order (44_range R600, 60_exceptions R725). -/
theorem rangeCheck_illegal {gw gh x1 y1 x2 y2 : Coord} {e : ErrCode}
    (h : (¬(x1.toNat < gw.toNat ∧ y1.toNat < gh.toNat ∧ x2.toNat < gw.toNat ∧ y2.toNat < gh.toNat) ∧ e = .oob) ∨
      (x1.toNat < gw.toNat ∧ y1.toNat < gh.toNat ∧ x2.toNat < gw.toNat ∧ y2.toNat < gh.toNat ∧
        flat gw x2 y2 < flat gw x1 y1 ∧ e = .badRange)) : rangeCheck gw gh x1 y1 x2 y2 = some e := by
  rw [rangeCheck_eq]
  rcases h with ⟨hout, rfl⟩ | ⟨hx1, hy1, hx2, hy2, horder, rfl⟩
  · rw [if_neg hout]
  · rw [if_pos ⟨hx1, hy1, hx2, hy2⟩, if_neg (Nat.not_le_of_lt horder)]

/-- Settles O24: RFILL and RGET make one check. -/
theorem illegalRangeIsRefused : Obligations.IllegalRangeIsRefused := by
  intro s x1 y1 x2 y2 e h
  have hv := rangeCheck_illegal h
  exact ⟨fun c => by rw [exec, execRfill, hv]; rfl, by rw [exec, execRget, hv]; rfl⟩

/-- XDATA for each data byte, once an error is latched (60_exceptions R720). -/
theorem foldl_xdata (data : List Byte) {s : State} (h : s.err = true) :
    data.foldl (fun t _ => raiseError .wrData .xdata t) s =
      { s with faults := List.replicate data.length ⟨.wrData, .error .xdata⟩ ++ s.faults } := by
  induction data generalizing s with
  | nil => rfl
  | cons b data ih =>
    rw [List.foldl_cons, ih rfl, raiseError_eq, List.length_cons, List.replicate_succ', if_pos h]
    simp only [List.append_assoc, List.cons_append, List.nil_append, ← h]

/-- Settles O25: the range error and its data bytes, or a legal range with another number of them. -/
theorem illegalRsetIsRefused : Obligations.IllegalRsetIsRefused := by
  intro s x1 y1 x2 y2 data
  refine ⟨fun e he => ?_, fun hnone hn => ?_⟩
  · simp only [exec, execRset, he]
    rw [foldl_xdata data rfl]
    rfl
  · simp only [exec, execRset, hnone]
    exact if_neg hn

end Sys2Proof.Machine

/-!
PROOFS. Errors (60_exceptions): what the error action changes (R720), that a latched error survives every instruction but
CLRERR (R721, R722), and that it blocks nothing (R723): an operation on a state whose ERR and ECODE were forgotten does the
same, but for ERR and ECODE themselves.
-/

namespace Sys2Proof.Machine

/-! ### The error action -/

/-- A second error changes nothing of the engine (60_exceptions R721). -/
theorem raiseError_toEngine_of_err {s : State} (h : s.err = true) (op : Op) (c : ErrCode) :
    (raiseError op c s).toEngine = s.toEngine := by
  rw [raiseError_eq, if_pos h, ← h]

/-- Settles O49: the first error writes STATUS only, and leaves ERR set for the second. -/
theorem firstErrorIsLatched : Obligations.FirstErrorIsLatched := fun _ op _ d =>
  ⟨rfl, raiseError_toEngine_of_err rfl op d⟩

/-! ### A latched error stays -/

/-- From `s` to `t` a latched error stays, code and all. -/
def KeepsError (s t : State) : Prop := s.err = true → t.err = true ∧ t.ecode = s.ecode

theorem KeepsError.refl (s : State) : KeepsError s s := fun herr => ⟨herr, rfl⟩

theorem KeepsError.trans {s t u : State} (h : KeepsError s t) (h' : KeepsError t u) : KeepsError s u := fun hs => by
  obtain ⟨ht, hcode⟩ := h hs
  obtain ⟨hu, hcode'⟩ := h' ht
  exact ⟨hu, hcode'.trans hcode⟩

theorem raiseError_keepsError (op : Op) (c : ErrCode) (s : State) : KeepsError s (raiseError op c s) :=
  fun h => ⟨rfl, if_pos h⟩

theorem ReadsOnly.keepsError {s t : State} (h : ReadsOnly s t) : KeepsError s t := by
  obtain ⟨_, _, rfl⟩ := h
  exact fun herr => ⟨herr, rfl⟩

theorem PlanesOnly.keepsError {s t : State} (h : PlanesOnly s t) : KeepsError s t := by
  obtain ⟨_, _, _, rfl⟩ := h
  exact fun herr => ⟨herr, rfl⟩

theorem notePoll_keepsError (op : Op) (s : State) : KeepsError s (notePoll op s) := by
  obtain ⟨hengine, -⟩ := notePoll_keeps op s
  exact fun herr => ⟨(congrArg Engine.err hengine).trans herr, congrArg Engine.ecode hengine⟩

theorem beginCommand_keepsError (b : Byte) (s : State) : KeepsError s (beginCommand b s) := by
  cases hk : kindOf s.cfg.rgetSupported b with
  | none =>
    rw [beginCommand_reserved_eq hk]
    exact fun herr => ⟨rfl, if_pos herr⟩
  | some k =>
    rw [beginCommand_legal hk]
    split <;> exact fun herr => ⟨herr, rfl⟩

theorem argsComplete_keepsError (k : Kind) (s : State) : KeepsError s (argsComplete k s) := by
  rcases argsComplete_cases k s with ⟨e, -, h⟩ | ⟨-, -, -, h⟩ | ⟨-, -, h⟩ <;> rw [h]
  · exact raiseError_keepsError (.command k) e s
  · exact fun herr => ⟨herr, rfl⟩
  · exact fun herr => ⟨herr, rfl⟩

/-- A command's frame raises an error or adds nothing to what its effect changes of STATUS. -/
theorem runCommand_keepsError {k : Kind} {check : Option ErrCode} {top : Nat} {effect : State → State} {s t : State}
    (he : KeepsError s (effect s)) (h : runCommand k check top effect s = .next t) : KeepsError s t := by
  rcases runCommand_next h with ⟨e, -, rfl⟩ | ⟨-, -, rfl⟩
  · exact raiseError_keepsError (.command k) e s
  · exact he

theorem execSetgeom_keepsError {w h : Coord} {s t : State} (hx : execSetgeom w h s = .next t) : KeepsError s t := by
  unfold execSetgeom at hx
  split at hx <;> cases hx
  · exact raiseError_keepsError (.command .setgeom) _ s
  · exact fun herr => ⟨herr, rfl⟩

theorem execRset_keepsError {x1 y1 x2 y2 : Coord} {data : List Byte} {s t : State}
    (h : execRset x1 y1 x2 y2 data s = .next t) : KeepsError s t := by
  unfold execRset at h
  split at h
  · rename_i e _
    cases h
    exact KeepsError.trans (t := toIdle (raiseError (.command .rset) e s)) (raiseError_keepsError (.command .rset) e s)
      (foldl_rel KeepsError.refl KeepsError.trans (fun u _ => raiseError_keepsError .wrData .xdata u) data _)
  · split at h
    · exact runCommand_keepsError (setRange_planesOnly data _ _ s).keepsError h
    · cases h

theorem execRdStatus_keepsError {s t : State} (h : execRdStatus s = .next t) : KeepsError s t := by
  unfold execRdStatus at h
  cases h
  split <;> exact fun herr => ⟨herr, rfl⟩

theorem execRdData_keepsError {s t : State} (h : execRdData s = .next t) : KeepsError s t := by
  unfold execRdData at h
  split at h <;> cases h
  · exact fun herr => ⟨herr, rfl⟩
  · exact raiseError_keepsError .rdData .underrun s

theorem execHpRd_keepsError {p : Plane} {off : Nat} {s t : State} (h : execHpRd p off s = .next t) : KeepsError s t := by
  obtain ⟨-, -, rfl⟩ := hostAccess_next h
  split <;> exact fun herr => ⟨herr, rfl⟩

theorem execHpWr_keepsError {p : Plane} {off : Nat} {v : Byte} {s t : State} (h : execHpWr p off v s = .next t) :
    KeepsError s t := by
  obtain ⟨-, -, rfl⟩ := hostAccess_next h
  split <;> exact fun herr => ⟨herr, rfl⟩

/-- WR_CMD raises up to two errors, one after the other (60_exceptions R725). -/
theorem execWrCmd_keepsError {b : Byte} {s t : State} (h : execWrCmd b s = .next t) : KeepsError s t := by
  refine (notePoll_keepsError .wrCmd s).trans ?_
  rcases execWrCmd_next h with ⟨-, rfl⟩ | ⟨-, u, rfl, rfl | ⟨-, rfl⟩⟩
  · exact raiseError_keepsError .wrCmd .busy _
  · exact beginCommand_keepsError b _
  · exact (raiseError_keepsError .wrCmd .abort _).trans (beginCommand_keepsError b _)

theorem execWrData_keepsError {b : Byte} {s t : State} (h : execWrData b s = .next t) : KeepsError s t := by
  refine (notePoll_keepsError .wrData s).trans ?_
  rcases execWrData_next h with ⟨-, rfl⟩ | ⟨-, rfl⟩ | ⟨-, k, u, -, rfl, rfl⟩ | ⟨-, u, rfl, rfl⟩
  · exact raiseError_keepsError .wrData .busy _
  · exact raiseError_keepsError .wrData .xdata _
  · split
    · exact argsComplete_keepsError k (storeArg b (notePoll .wrData s))
    · exact fun herr => ⟨herr, rfl⟩
  · split <;> exact fun herr => ⟨herr, rfl⟩

/-- A latched error survives every instruction but CLRERR (60_exceptions R722). -/
theorem exec_keepsError {i : Instr} {s t : State} (hi : i ≠ .clrerr) (h : exec i s = .next t) : KeepsError s t := by
  cases i with
  | clrerr => exact absurd rfl hi
  | getcfg =>
    rw [exec, execGetcfg_eq] at h
    cases h
    exact fun herr => ⟨herr, rfl⟩
  | setdm m =>
    cases h
    exact fun herr => ⟨herr, rfl⟩
  | setgeom w h' => exact execSetgeom_keepsError h
  | pset c x y => exact runCommand_keepsError (pixelWrite_planesOnly _ c s).keepsError h
  | pget x y => exact runCommand_keepsError (pushPixel_readsOnly _ s).keepsError h
  | rfill c x1 y1 x2 y2 => exact runCommand_keepsError (fillRange_planesOnly c _ _ s).keepsError h
  | rset x1 y1 x2 y2 data => exact execRset_keepsError h
  | rget x1 y1 x2 y2 => exact runCommand_keepsError (getRange_readsOnly _ _ s).keepsError h
  | rdStatus => exact execRdStatus_keepsError h
  | wrCmd b => exact execWrCmd_keepsError h
  | wrData b => exact execWrData_keepsError h
  | rdData => exact execRdData_keepsError h
  | hpRd p off => exact execHpRd_keepsError h
  | hpWr p off v => exact execHpWr_keepsError h

/-- Settles O51: an instruction raises errors or leaves STATUS alone, and CLRERR is the one that clears it. -/
theorem onlyClrerrClearsErrors : Obligations.OnlyClrerrClearsErrors := fun _ _ _ herr hi h =>
  exec_keepsError hi h herr

/-! ### Operations that do not read STATUS -/

/-- `s` with ERR and ECODE forgotten. -/
def State.forgetStatus (s : State) : State := s.setStatus false .none

/-- What `f` does to the state apart from ERR and ECODE does not depend on them. -/
def StatusBlind (f : State → State) : Prop := ∀ s, (f s.forgetStatus).forgetStatus = (f s).forgetStatus

/-- What `m` answers apart from ERR and ECODE does not depend on them. -/
def AnswersBlind (m : State → Host.Outcome State Fault Refusal) : Prop :=
  ∀ s, viewOutcome State.forgetStatus (m s.forgetStatus) = viewOutcome State.forgetStatus (m s)

theorem StatusBlind.congr {f : State → State} (hf : StatusBlind f) {s t : State} (h : s.forgetStatus = t.forgetStatus) :
    (f s).forgetStatus = (f t).forgetStatus := by
  rw [← hf s, h, hf t]

/-- Two choices made alike look alike when their branches do. -/
theorem view_ite_congr {α β : Type} {view : α → β} {p q : Prop} [Decidable p] [Decidable q] {a a' b b' : α} (h : p ↔ q)
    (ha : view a = view a') (hb : view b = view b') : view (if p then a else b) = view (if q then a' else b') := by
  rw [apply_ite view, apply_ite view]
  exact if_congr h ha hb

theorem foldl_statusBlind {α : Type} {step : State → α → State} (h : ∀ a, StatusBlind fun s => step s a) (l : List α) :
    StatusBlind fun s => l.foldl step s := by
  induction l with
  | nil => exact fun _ => rfl
  | cons a l ih => exact fun s => ih.congr (h a s)

theorem overRange_statusBlind {pixel byte : Nat → State → State} (hp : ∀ f, StatusBlind (pixel f))
    (hb : ∀ k, StatusBlind (byte k)) (ls le : Nat) : StatusBlind (overRange ls le pixel byte) := fun s =>
  (foldl_statusBlind hp _).congr ((foldl_statusBlind hb _).congr (foldl_statusBlind hp _ s))

/-! ### The shared operations do not read STATUS -/

theorem planeWrite_statusBlind (p : Plane) (off : Nat) (v : Byte) : StatusBlind fun s => s.planeWrite p off v :=
  fun _ => view_ite_congr Iff.rfl rfl rfl

theorem pixelWrite_statusBlind (f : Nat) (c : Colour) : StatusBlind (pixelWrite f c) :=
  foldl_statusBlind (fun p t => planeWrite_statusBlind p _ _ (t.planeRead p _)) Plane.all

theorem byteWrite_statusBlind (k : Nat) (d : Quad Byte) : StatusBlind (byteWrite k d) := by
  refine foldl_statusBlind (fun p t => view_ite_congr (p := t.dm = .replace) Iff.rfl ?_ ?_) Plane.all
  · exact planeWrite_statusBlind p k _ t
  · exact planeWrite_statusBlind p k _ (t.planeRead p k)

theorem pushPixel_statusBlind (f : Nat) : StatusBlind (pushPixel f) := fun _ => rfl

theorem pushByte_statusBlind (k : Nat) : StatusBlind (pushByte k) := fun _ => rfl

theorem fillRange_statusBlind (c : Colour) (ls le : Nat) : StatusBlind (fillRange c ls le) :=
  overRange_statusBlind (fun f => pixelWrite_statusBlind f c) (fun k => byteWrite_statusBlind k _) ls le

theorem setRange_statusBlind (data : List Byte) (ls le : Nat) : StatusBlind (setRange data ls le) :=
  overRange_statusBlind (fun f => pixelWrite_statusBlind f _) (fun k => byteWrite_statusBlind k _) ls le

theorem getRange_statusBlind (ls le : Nat) : StatusBlind (getRange ls le) :=
  overRange_statusBlind pushPixel_statusBlind pushByte_statusBlind ls le

/-- A late write's note neither reads nor writes STATUS. -/
theorem notePoll_forgetStatus (op : Op) (s : State) : notePoll op s.forgetStatus = (notePoll op s).forgetStatus := by
  rw [notePoll, notePoll, apply_ite State.forgetStatus]
  rfl

/-- Beginning a command reads of STATUS only what an error latches (40_sequencer R402). -/
theorem beginCommand_statusBlind (b : Byte) : StatusBlind (beginCommand b) := by
  intro s
  cases hk : kindOf s.cfg.rgetSupported b with
  | none =>
    rw [beginCommand_reserved hk, beginCommand_reserved (s := s.forgetStatus) hk]
    rfl
  | some k =>
    rw [beginCommand_legal hk, beginCommand_legal (s := s.forgetStatus) hk]
    exact view_ite_congr Iff.rfl rfl rfl

theorem argsComplete_statusBlind (k : Kind) : StatusBlind (argsComplete k) := by
  intro s
  cases hv : validate k s with
  | some e =>
    rw [argsComplete_reject hv, argsComplete_reject (s := s.forgetStatus) hv]
    rfl
  | none =>
    by_cases hk : k = .rset
    · subst hk
      rw [argsComplete_rset hv, argsComplete_rset (s := s.forgetStatus) hv]
      rfl
    · rw [argsComplete_of_ne_rset hv hk, argsComplete_of_ne_rset (s := s.forgetStatus) hv hk]
      rfl

theorem runCommand_answersBlind {effect : State → State} (he : StatusBlind effect) (k : Kind) (check : Option ErrCode)
    (top : Nat) : AnswersBlind (runCommand k check top effect) := by
  intro s
  cases check with
  | some e => rfl
  | none => exact view_ite_congr Iff.rfl (congrArg Host.Outcome.next (congrArg finish (he s))) rfl

/-! ### The instructions do not read STATUS -/

theorem execSetgeom_answersBlind (w h : Coord) : AnswersBlind (execSetgeom w h) := by
  intro s
  cases hc : geomCheck s.cfg.planeBytes w h with
  | some e =>
    rw [execSetgeom_refuse hc, execSetgeom_refuse (s := s.forgetStatus) hc]
    rfl
  | none =>
    rw [execSetgeom_accept hc, execSetgeom_accept (s := s.forgetStatus) hc]
    rfl

theorem execRset_answersBlind (x1 y1 x2 y2 : Coord) (data : List Byte) : AnswersBlind (execRset x1 y1 x2 y2 data) := by
  intro s
  have hcheck : rangeCheck s.forgetStatus.gw s.forgetStatus.gh x1 y1 x2 y2 = rangeCheck s.gw s.gh x1 y1 x2 y2 := rfl
  rw [execRset, execRset, hcheck]
  cases rangeCheck s.gw s.gh x1 y1 x2 y2 with
  | some e => exact congrArg Host.Outcome.next ((foldl_statusBlind (fun _ _ => rfl) data).congr rfl)
  | none => exact view_ite_congr Iff.rfl (runCommand_answersBlind (setRange_statusBlind data _ _) .rset none _ s) rfl

theorem execWrCmd_answersBlind (b : Byte) : AnswersBlind (execWrCmd b) := by
  intro s
  rw [execWrCmd, execWrCmd, notePoll_forgetStatus]
  refine view_ite_congr Iff.rfl rfl (congrArg Host.Outcome.next ((beginCommand_statusBlind b).congr ?_))
  exact view_ite_congr Iff.rfl rfl rfl

theorem execWrData_answersBlind (b : Byte) : AnswersBlind (execWrData b) := by
  intro s
  rw [execWrData, execWrData, notePoll_forgetStatus]
  generalize notePoll .wrData s = t
  have hphase : t.forgetStatus.phase = t.phase := rfl
  simp only [hphase]
  cases t.phase with
  | idle => rfl
  | collect =>
    have hkind : kindOf t.forgetStatus.cfg.rgetSupported t.forgetStatus.sel = kindOf t.cfg.rgetSupported t.sel := rfl
    simp only [hkind]
    cases kindOf t.cfg.rgetSupported t.sel with
    | none => rfl
    | some k =>
      exact congrArg Host.Outcome.next (view_ite_congr Iff.rfl (argsComplete_statusBlind k (storeArg b t)) rfl)
  | data => exact congrArg Host.Outcome.next (view_ite_congr Iff.rfl rfl rfl)
  | exec => rfl

theorem execRdData_answersBlind : AnswersBlind execRdData := by
  intro s
  cases hq : s.rq with
  | nil =>
    rw [execRdData_nil hq, execRdData_nil (s := s.forgetStatus) hq]
    rfl
  | cons b rest =>
    rw [execRdData_cons hq, execRdData_cons (s := s.forgetStatus) hq]
    rfl

/-- Whether a host plane access stops does not depend on STATUS. -/
theorem hostAccess_forgetStatus {s u v : State} (h : u.forgetStatus = v.forgetStatus) (off : Nat) :
    viewOutcome State.forgetStatus (hostAccess off s.forgetStatus u) =
      viewOutcome State.forgetStatus (hostAccess off s v) := by
  rw [viewOutcome_hostAccess, viewOutcome_hostAccess, h]
  rfl

theorem execHpRd_answersBlind (p : Plane) (off : Nat) : AnswersBlind (execHpRd p off) := by
  intro s
  rw [execHpRd, execHpRd]
  refine hostAccess_forgetStatus ?_ off
  exact view_ite_congr Iff.rfl rfl rfl

theorem execHpWr_answersBlind (p : Plane) (off : Nat) (v : Byte) : AnswersBlind (execHpWr p off v) := by
  intro s
  rw [execHpWr, execHpWr]
  refine hostAccess_forgetStatus ?_ off
  exact view_ite_congr Iff.rfl rfl rfl

/-- No instruction but RD_STATUS, whose reply is STATUS, depends on ERR and ECODE (60_exceptions R723). -/
theorem exec_answersBlind {i : Instr} (hi : i ≠ .rdStatus) : AnswersBlind (exec i) := by
  cases i with
  | clrerr => exact fun _ => rfl
  | getcfg => exact fun _ => rfl
  | setdm m => exact fun _ => rfl
  | setgeom w h => exact execSetgeom_answersBlind w h
  | pset c x y => exact fun s => runCommand_answersBlind (pixelWrite_statusBlind _ c) .pset _ _ s
  | pget x y => exact fun s => runCommand_answersBlind (pushPixel_statusBlind _) .pget _ _ s
  | rfill c x1 y1 x2 y2 => exact fun s => runCommand_answersBlind (fillRange_statusBlind c _ _) .rfill _ _ s
  | rset x1 y1 x2 y2 data => exact execRset_answersBlind x1 y1 x2 y2 data
  | rget x1 y1 x2 y2 => exact fun s => runCommand_answersBlind (getRange_statusBlind _ _) .rget _ _ s
  | rdStatus => exact absurd rfl hi
  | wrCmd b => exact execWrCmd_answersBlind b
  | wrData b => exact execWrData_answersBlind b
  | rdData => exact execRdData_answersBlind
  | hpRd p off => exact execHpRd_answersBlind p off
  | hpWr p off v => exact execHpWr_answersBlind p off v

/-- Settles O50: whatever ERR and ECODE hold, the answer is that of the state with both forgotten. -/
theorem errorBlocksNothing : Obligations.ErrorBlocksNothing := fun _ s e c hi =>
  (exec_answersBlind hi (s.setStatus e c)).symm.trans (exec_answersBlind hi s)

end Sys2Proof.Machine

/-!
PROOFS. Reset (70_reset_and_hazards R800, R801) and hazards: writes before the poll R820 asks for, and the writes of a
command whose bytes R821 left undefined.
-/

namespace Sys2Proof.Machine

/-! ### Reset -/

/-- STATUS reads 0x00 in Idle with no result and no error (10_state R120, R150). -/
theorem statusByte_eq_zero {s : State} (hp : s.phase = .idle) (hq : s.rq = []) (he : s.err = false)
    (hc : s.ecode = .none) : s.statusByte = 0 := by
  simp [State.statusByte, State.busyFlag, State.drdyFlag, State.collFlag, flagByte, errBits, hp, hq, he, hc]

/-- Settles O1: power-on and a later reset write every register that the statement names. -/
theorem resetLeavesRegisters : Obligations.ResetLeavesRegisters := by
  refine ⟨fun _ _ => rfl, fun _ => rfl, fun s hs => ?_⟩
  rcases hs with ⟨cfg, init, rfl⟩ | ⟨u, rfl⟩ <;>
    exact ⟨rfl, rfl, rfl, rfl, rfl, statusByte_eq_zero rfl rfl rfl rfl, rfl, rfl, rfl, rfl, rfl⟩

/-- Settles O2: on the host's turn the reset input is its first event. -/
theorem resetEventResets : Obligations.ResetEventResets := fun s _ hm hb =>
  step_of_fetch_goOn ((fetch_host hm).trans (fetchHost_reset (s := s.popTurn) hb))

/-! ### Writes before the poll -/

/-- A write with a poll due and no command in Exec is recorded, once (log entry 9). -/
theorem notePoll_of_due {op : Op} {s : State} (hp : s.phase ≠ .exec) (hd : s.pollDue = true) :
    notePoll op s = { s with pollDue := false, faults := ⟨op, .unpolled⟩ :: s.faults } := by
  rcases notePoll_cases op s with h | ⟨-, -, h⟩
  · have hclear := notePoll_pollDue (op := op) hp
    rw [h, hd] at hclear
    cases hclear
  · exact h

theorem execWrCmd_congr {s t : State} (h : notePoll .wrCmd s = notePoll .wrCmd t) (b : Byte) :
    execWrCmd b s = execWrCmd b t := by
  rw [execWrCmd, execWrCmd, h]

theorem execWrData_congr {s t : State} (h : notePoll .wrData s = notePoll .wrData t) (b : Byte) :
    execWrData b s = execWrData b t := by
  rw [execWrData, execWrData, h]

/-- Settles O44: noting the late poll gives the state in which none is due, on which a second note changes nothing. -/
theorem lateWriteIsRecorded : Obligations.LateWriteIsRecorded := by
  refine fun s b hp hd => ⟨execWrCmd_congr ?_ b, execWrData_congr ?_ b⟩
  · rw [notePoll_of_due hp hd, notePoll_of_not_due rfl]
  · rw [notePoll_of_due hp hd, notePoll_of_not_due rfl]

/-- Beginning a command records BADSEL for a reserved selector and nothing for a legal one (40_sequencer R402). -/
theorem beginCommand_faults (b : Byte) (s : State) :
    (beginCommand b s).faults =
      (if kindOf s.cfg.rgetSupported b = none then [⟨.wrCmd, .error .badSel⟩] else []) ++ s.faults := by
  cases hk : kindOf s.cfg.rgetSupported b with
  | none =>
    rw [beginCommand_reserved_eq hk]
    rfl
  | some k =>
    rw [beginCommand_legal hk]
    split <;> rfl

/-- From Idle, a command's transfers end with its bytes in the registers, rejected or pending. -/
theorem issue_transfers_ends {s : State} {i : Instr} (hidle : s.phase = .idle) (hi : isCommand i = true)
    (hwf : i.wf s.cfg s.gw s.gh = true) :
    EndsTransfers (notePoll .wrCmd s) i (issue (transfers s.cfg i) s) := by
  obtain ⟨sel, bytes, hcode, hissue⟩ := issue_transfers hidle hi
  have hdecode := decode_encode_command hi hwf
  obtain ⟨-, hgw, hgh, hcfg, -⟩ := State.control_eq_iff.mp (notePoll_sameStore .wrCmd s).2
  rw [hcode, ← hcfg, ← hgw, ← hgh] at hdecode
  rw [hissue]
  exact endsTransfers_beginCommand (notePoll_pollDue (by simp [hidle])) hdecode

/-- Ended transfers leave a poll due, the command done or in Exec (70_reset_and_hazards R820). -/
theorem EndsTransfers.pollDue {s : State} {i : Instr} {o : Host.Outcome State Fault Refusal}
    (h : EndsTransfers s i o) : ∃ u, o = .next u ∧ u.pollDue = true ∧ (u.phase = .idle ∨ u.phase = .exec) := by
  obtain ⟨k, t, -, -, -, -, ⟨e, -, ho⟩ | ⟨-, -, ho⟩⟩ := h
  · exact ⟨_, ho, rfl, Or.inl rfl⟩
  · exact ⟨_, ho, rfl, Or.inr rfl⟩

/-- Settles O58: the transfers leave a poll due in Idle, where the next write is recorded as unpolled, or in Exec, where it
is BUSY. -/
theorem pollIsDueAfterLastByte : Obligations.PollIsDueAfterLastByte := by
  intro s i hidle hi hwf
  obtain ⟨u, hu, hd, hp | hp⟩ := (issue_transfers_ends hidle hi hwf).pollDue
  · refine ⟨u, hu, hd, fun b => ⟨_, _, execWrCmd_idle hp, execWrData_idle hp, fun hx => ?_, fun hx => ⟨?_, ?_⟩⟩⟩
    · rw [hp] at hx
      cases hx
    · rw [beginCommand_faults, notePoll_of_due hx hd]
    · rw [raiseError_eq, notePoll_of_due hx hd]
  · exact ⟨u, hu, hd, fun b =>
      ⟨_, _, execWrCmd_exec hp, execWrData_exec hp, fun _ => ⟨rfl, rfl⟩, fun hx => absurd hp hx⟩⟩

/-! ### Writes of undefined bytes -/

/-- From `s` to `t`, the planes, the trace and the free-value counter may change, and no plane byte that holds none of the
flat indices `l` does, whatever lands in the others. -/
def WritesWithin (l : List Nat) (s t : State) : Prop :=
  PlanesOnly s t ∧ ∀ off b, (∀ f ∈ l, f / 8 ≠ off) → s.holdsAt off b → t.holdsAt off b

theorem WritesWithin.nil (s : State) : WritesWithin [] s s := ⟨PlanesOnly.refl s, fun _ _ _ h => h⟩

theorem WritesWithin.append {l l' : List Nat} {s t u : State} (h : WritesWithin l s t) (h' : WritesWithin l' t u) :
    WritesWithin (l ++ l') s u :=
  ⟨h.1.trans h'.1, fun off b hl hs => h'.2 off b (fun f hf => hl f (List.mem_append_right l hf))
    (h.2 off b (fun f hf => hl f (List.mem_append_left l' hf)) hs)⟩

theorem pixelWrite_writesWithin (f : Nat) (c : Colour) (s : State) : WritesWithin [f] s (pixelWrite f c s) :=
  ⟨pixelWrite_planesOnly f c s, fun _ _ hf hs => pixelWrite_holdsAt hs (hf f List.mem_cons_self) c⟩

theorem byteWrite_writesWithin (k : Nat) (d : Quad Byte) (s : State) :
    WritesWithin (ascending (8 * k) (8 * k + 8)) s (byteWrite k d s) :=
  ⟨byteWrite_planesOnly k d s, fun _ _ hk hs =>
    byteWrite_holdsAt hs (fun h => hk (8 * k) (by simp) (by omega)) d⟩

/-- A writing walk writes within its range, hazard or not (41_datapath R475). -/
theorem writeRange_writesWithin (colour : Nat → Colour) (data : Nat → Quad Byte) {ls le : Nat} (h : ls ≤ le)
    (s : State) :
    WritesWithin (ascending ls (le + 1)) s
      (overRange ls le (fun f => pixelWrite f (colour f)) (fun k => byteWrite k (data k)) s) :=
  overRange_covers WritesWithin.nil (fun _ h h' => h.append h') (fun f => pixelWrite_writesWithin f (colour f))
    (fun k => byteWrite_writesWithin k (data k)) h s

theorem ascending_succ_self (f : Nat) : ascending f (f + 1) = [f] := by
  rw [ascending_of_lt (Nat.lt_succ_self f), ascending_of_le (Nat.le_refl _)]

/-- The end of the Exec step after writes within a range: every byte outside stays, and so does every register but those
of R415. -/
theorem WritesWithin.finish_inRange {ls le : Nat} {s t : State} (h : WritesWithin (ascending ls (le + 1)) s t)
    (hs : s.canonical) :
    (∀ p off, off < ls / 8 ∨ le / 8 < off → (finish t).planeByte p off = s.planeByte p off) ∧
      finish t = { s with planes := (finish t).planes, trace := (finish t).trace, freeIdx := (finish t).freeIdx
                          phase := .idle, argc := 0, dbuf := [], dcnt := 0, hazard := false } := by
  obtain ⟨hframe, hbytes⟩ := h
  refine ⟨fun p off hoff => ?_, ?_⟩
  · have hout : ∀ f ∈ ascending ls (le + 1), f / 8 ≠ off := fun f hf => by
      rw [mem_ascending] at hf
      omega
    exact (hbytes off (fun p => s.planeByte p off) hout ⟨hs, fun _ => rfl⟩).2 p
  · obtain ⟨_, _, _, rfl⟩ := hframe
    rfl

/-- Settles O30: each of the three commands performs its effect, which writes within its range whatever bytes land. -/
theorem hazardousWritesStayInRange : Obligations.HazardousWritesStayInRange := by
  intro s x1 y1 x2 y2 hplanes hgeom _ hx1 hy1 hx2 hy2 hle i hi
  have hs : s.canonical := fun p => (hplanes p).1
  have hv : rangeCheck s.gw s.gh x1 y1 x2 y2 = none := rangeCheck_eq_none_iff.mpr ⟨⟨hx1, hy1, hx2, hy2⟩, hle⟩
  rcases hi with ⟨c, rfl, rfl, rfl⟩ | ⟨c, rfl⟩ | ⟨data, rfl, hn⟩
  · exact ⟨_, exec_pset_eq hgeom hx1 hy1 c, WritesWithin.finish_inRange
      ((ascending_succ_self _).symm ▸ pixelWrite_writesWithin _ c s) hs⟩
  · exact ⟨_, exec_rfill_eq hgeom hv c, (writeRange_writesWithin _ _ hle s).finish_inRange hs⟩
  · exact ⟨_, exec_rset_eq hgeom hv hn, (writeRange_writesWithin _ _ hle s).finish_inRange hs⟩

end Sys2Proof.Machine
